-- ==== Sys2Proof/Word.lean ====
section
/-! DEFINITION. The bit-vector types the block moves (20_memory.md R28, 30_encoding.md R38, R51). -/

namespace Sys2Proof

/-- An 8-bit value: the command word, `pct`, `s`, a BTF, a byte of a host region. -/
abbrev Byte := BitVec 8

/-- A 32-bit buffer word (R23); also the width of `size` and `sample_size` (R5). -/
abbrev Word := BitVec 32

/-- A 64-bit payload (R38). -/
abbrev Payload := BitVec 64

/-- A 66-bit frame word: `F[65:64]` the sync header, `F[63:0]` the payload (R38). -/
abbrev FrameWord := BitVec 66

/-- The identity of a host region (R10). DESIGN CHOICE (log 2): 64 bits. -/
abbrev Handle := BitVec 64

end Sys2Proof
end

