-- ==== Sys2Proof/Syntax.lean ====
section
/-! DEFINITION. What the block reads and answers, as syntax: frame classes and records, BTF names, the three packet
layouts, the raw requests at the block's inputs, and `Instr`, one constructor per row of spec/opcode_table.json. -/

namespace Sys2Proof

/-- The class of a frame by its sync header (30_encoding.md R39, 43_frame_iterator.md R80). -/
inductive FrameClass where
  | data
  | control
  | error
  deriving DecidableEq, Repr, Inhabited

/-- One element of the packet buffer (10_state.md R16). -/
structure FrameRecord where
  cls : FrameClass
  payload : Payload
  deriving DecidableEq, Repr, Inhabited

/-- The names of the Block Type Field's values (30_encoding.md R42); `other` is R43's. -/
inductive BtfName where
  | idle | nfc | ufc | sep | sep7
  | k0 | k1 | k2 | k3 | k4 | k5 | k6 | k7 | k8
  | res
  | other
  deriving DecidableEq, Repr, Inhabited

/-- The second-level variant keyed by the BTF (30_encoding.md R42, column class). -/
inductive BtfClass where
  | idle | nfc | ufc | sep | sep7 | generic
  deriving DecidableEq, Repr, Inhabited

/-- What `fault_info` records (60_exceptions.md R120): a word index or the tag UNDERFLOW. -/
inductive FaultInfo where
  | word (j : Nat)
  | underflow
  deriving DecidableEq, Repr, Inhabited

/-- The parameter FRAME0_POLICY (00_scope.md R5, 43_frame_iterator.md R82). -/
inductive Frame0Policy where
  | discard
  | emitRaw
  deriving DecidableEq, Repr, Inhabited

/-- The event packet's fields as the 64-bit payload holds them (30_encoding.md R44). -/
structure EventPacket where
  channel : BitVec 4
  evType : BitVec 2
  timestamp : BitVec 22
  pulseWidth : BitVec 14
  debug : Bool
  chP : Bool
  tP : Bool
  tsP : Bool
  pwP : Bool
  combinedP : Bool
  unused : BitVec 16
  deriving DecidableEq, Repr, Inhabited

/-- The statistics packet's fields over `C = D1 ∥ D2` (30_encoding.md R47). -/
structure StatisticsPacket where
  fifoDrop : BitVec 20
  pwidthDrop : BitVec 20
  dcountDrop : BitVec 20
  triggerDrop : BitVec 20
  pulseError : BitVec 16
  unused : BitVec 32
  deriving DecidableEq, Repr, Inhabited

/-- The extension packet's fields (30_encoding.md R48). -/
structure ExtensionPacket where
  packetCount : BitVec 23
  coarseCounter : BitVec 24
  resetFlag : Bool
  unused : BitVec 16
  deriving DecidableEq, Repr, Inhabited

/-- What DECODE_EVENT returns: the fifteen fields of 44_packet_decoders.md R96. -/
structure EventRecord where
  channel : BitVec 4
  channelOk : Bool
  evType : BitVec 2
  typeOk : Bool
  timestamp : BitVec 22
  timestampOk : Bool
  pulseWidth : BitVec 14
  pulseWidthOk : Bool
  debug : Bool
  chP : Bool
  tP : Bool
  tsP : Bool
  pwP : Bool
  combinedP : Bool
  hasValidParity : Bool
  deriving DecidableEq, Repr

/-- What DECODE_STATISTICS returns (44_packet_decoders.md R97). -/
structure StatisticsRecord where
  fifoDrop : BitVec 20
  pwidthDrop : BitVec 20
  dcountDrop : BitVec 20
  triggerDrop : BitVec 20
  pulseError : BitVec 16
  deriving DecidableEq, Repr

/-- What DECODE_EXTENSION returns (44_packet_decoders.md R98). -/
structure ExtensionRecord where
  packetCount : BitVec 23
  coarseCounter : BitVec 24
  resetFlag : Bool
  deriving DecidableEq, Repr

/-- The operand inputs that are shared by commands of different operand widths (30_encoding.md R52). -/
inductive Lane where
  | a
  | b
  deriving DecidableEq, Repr

/-- Why the decoder rejects a request: the value on an input is wider than the command's operand, which R52 says a host
cannot present (log 1). -/
inductive Reject where
  | operandTooWide (lane : Lane)
  deriving DecidableEq, Repr

/-- The bits presented at one of the block's inputs.
`command` is 30_encoding.md R51's command word with its operand inputs A to D, each as wide as its widest operand (log 1).
`frame` is the decoded frame word at the frame iterator (log 7).
The last three are a packet at its decoder (log 8). -/
inductive Request where
  | command (cmd : Byte) (a b : BitVec 64) (c : Byte) (d : Word)
  | frame (f : FrameWord)
  | event (d : Payload)
  | extension (d : Payload)
  | statistics (c : BitVec 128)
  deriving DecidableEq, Repr

/-- One constructor per row of spec/opcode_table.json. -/
inductive Instr where
  /-- R102; the two flags are `p = cmd[1]` and `c = cmd[0]`. -/
  | construct (useDefaultSample useDefaultPct : Bool) (buf0 : Handle) (size : Word) (pct : Byte) (ss : Word)
  /-- R103. -/
  | setBuffer (buf1 : Handle) (size : Word)
  /-- R104. -/
  | forceBitslip (slip : Byte)
  /-- R105. -/
  | synchronize
  /-- R106. -/
  | isSynchronized
  /-- R107. -/
  | getBitslip
  /-- R108. -/
  | process (discardControl : Bool)
  /-- R109. -/
  | getPacketBuffer
  /-- R110. -/
  | getBer
  /-- R111. -/
  | decodeEvent (d : Payload)
  /-- R112. -/
  | decodeStatistics (d1 d2 : Payload)
  /-- R113. -/
  | decodeExtension (d : Payload)
  /-- R53: a reserved command word. -/
  | reserved (cmd : Byte)
  /-- R39: a frame of sync header 01. -/
  | data (d : Payload)
  /-- R42: the fifteen named control frames; `x` is `F[55:0]`. -/
  | ctrlIdle (x : BitVec 56)
  | ctrlNfc (x : BitVec 56)
  | ctrlUfc (x : BitVec 56)
  | ctrlSep (x : BitVec 56)
  | ctrlSep7 (x : BitVec 56)
  | ctrlK0 (x : BitVec 56)
  | ctrlK1 (x : BitVec 56)
  | ctrlK2 (x : BitVec 56)
  | ctrlK3 (x : BitVec 56)
  | ctrlK4 (x : BitVec 56)
  | ctrlK5 (x : BitVec 56)
  | ctrlK6 (x : BitVec 56)
  | ctrlK7 (x : BitVec 56)
  | ctrlK8 (x : BitVec 56)
  | ctrlRes (x : BitVec 56)
  /-- R43: a control frame whose BTF is none of the fifteen. -/
  | ctrlOther (btf : Byte) (x : BitVec 56)
  /-- R80: a frame of sync header 00. -/
  | error00 (x : Payload)
  /-- R80: a frame of sync header 11. -/
  | error11 (x : Payload)
  /-- R44. -/
  | eventPacket (p : EventPacket)
  /-- R48. -/
  | extensionPacket (p : ExtensionPacket)
  /-- R47. -/
  | statisticsPacket (p : StatisticsPacket)
  deriving DecidableEq, Repr

end Sys2Proof
end

