-- ==== Sys2Proof/Decode.lean ====
section
/-! DEFINITION. From the bits at an input to an instruction, and back: the command word (30_encoding.md R51 to R53), the
frame word and its BTF (R39, R42, R43) and the packet layouts (R44, R47, R48). -/

namespace Sys2Proof

/-! ### The Block Type Field -/

/-- The table of 30_encoding.md R42. -/
def btfTable : List (Byte × BtfName) :=
  [(0x78, .idle), (0xAA, .nfc), (0x2D, .ufc), (0x1E, .sep), (0xE1, .sep7),
   (0xD2, .k0), (0x99, .k1), (0x55, .k2), (0xB4, .k3), (0xCC, .k4),
   (0x66, .k5), (0x33, .k6), (0x4B, .k7), (0x87, .k8), (0xFF, .res)]

/-- The name of a BTF value; `other` for the 241 values outside the table (R42, R43). -/
def btfName (b : Byte) : BtfName :=
  match btfTable.find? (fun row => row.1 == b) with
  | some row => row.2
  | none => .other

/-- The BTF value of a name of the table (R42). `other` has no value of its own: it stands for 241 of them. -/
def btfCode (n : BtfName) : Byte :=
  match btfTable.find? (fun row => row.2 == n) with
  | some row => row.1
  | none => 0

/-- The class column of R42; `other` is generic (R43). -/
def btfClass : BtfName → BtfClass
  | .idle => .idle
  | .nfc => .nfc
  | .ufc => .ufc
  | .sep => .sep
  | .sep7 => .sep7
  | .k0 => .generic
  | .k1 => .generic
  | .k2 => .generic
  | .k3 => .generic
  | .k4 => .generic
  | .k5 => .generic
  | .k6 => .generic
  | .k7 => .generic
  | .k8 => .generic
  | .res => .generic
  | .other => .generic

/-! ### The packet layouts -/

/-- The slices of 30_encoding.md R44, `D[hi:lo]` read as `extractLsb' lo (hi - lo + 1)` (00_scope.md R7). -/
def eventOfBits (d : Payload) : EventPacket where
  channel := d.extractLsb' 60 4
  evType := d.extractLsb' 58 2
  timestamp := d.extractLsb' 36 22
  pulseWidth := d.extractLsb' 22 14
  debug := d.getLsbD 21
  chP := d.getLsbD 20
  tP := d.getLsbD 19
  tsP := d.getLsbD 18
  pwP := d.getLsbD 17
  combinedP := d.getLsbD 16
  unused := d.extractLsb' 0 16

/-- The payload that holds an event packet's fields (R44). -/
def eventToBits (p : EventPacket) : Payload :=
  p.channel ++ p.evType ++ p.timestamp ++ p.pulseWidth ++ BitVec.ofBool p.debug ++ BitVec.ofBool p.chP ++
    BitVec.ofBool p.tP ++ BitVec.ofBool p.tsP ++ BitVec.ofBool p.pwP ++ BitVec.ofBool p.combinedP ++ p.unused

/-- The slices of 30_encoding.md R47 over `C = D1 ∥ D2`. -/
def statisticsOfBits (c : BitVec 128) : StatisticsPacket where
  fifoDrop := c.extractLsb' 108 20
  pwidthDrop := c.extractLsb' 88 20
  dcountDrop := c.extractLsb' 68 20
  triggerDrop := c.extractLsb' 48 20
  pulseError := c.extractLsb' 32 16
  unused := c.extractLsb' 0 32

/-- The 128 bits that hold a statistics packet's fields (R47). -/
def statisticsToBits (p : StatisticsPacket) : BitVec 128 :=
  p.fifoDrop ++ p.pwidthDrop ++ p.dcountDrop ++ p.triggerDrop ++ p.pulseError ++ p.unused

/-- The slices of 30_encoding.md R48. -/
def extensionOfBits (d : Payload) : ExtensionPacket where
  packetCount := d.extractLsb' 41 23
  coarseCounter := d.extractLsb' 17 24
  resetFlag := d.getLsbD 16
  unused := d.extractLsb' 0 16

/-- The payload that holds an extension packet's fields (R48). -/
def extensionToBits (p : ExtensionPacket) : Payload :=
  p.packetCount ++ p.coarseCounter ++ BitVec.ofBool p.resetFlag ++ p.unused

/-! ### The command word -/

/-- `cmd[7:4]` (R51). -/
def opcodeOf (cmd : Byte) : BitVec 4 := cmd.extractLsb' 4 4

/-- `cmd[3:0]` (R51). -/
def modifierOf (cmd : Byte) : BitVec 4 := cmd.extractLsb' 0 4

/-- The modifier bits an opcode defines (R52), `none` for the reserved opcodes (R53). -/
def modifierMask (op : BitVec 4) : Option (BitVec 4) :=
  match op.toNat with
  | 0x1 => some 0b0011
  | 0x2 => some 0
  | 0x3 => some 0
  | 0x4 => some 0
  | 0x5 => some 0
  | 0x6 => some 0
  | 0x7 => some 0b0001
  | 0x8 => some 0
  | 0x9 => some 0
  | 0xA => some 0
  | 0xB => some 0
  | 0xC => some 0
  | _ => none

/-- R53: a reserved opcode, or a modifier bit the opcode does not define. -/
def isReserved (cmd : Byte) : Bool :=
  match modifierMask (opcodeOf cmd) with
  | none => true
  | some m => (modifierOf cmd &&& ~~~m) != 0

/-- The command of a command word and its operand inputs (R52). Inputs a command does not name are ignored. -/
def decodeCommand (cmd : Byte) (a b : BitVec 64) (c : Byte) (d : Word) : Except Reject Instr :=
  if isReserved cmd then .ok (.reserved cmd)
  else
    match (opcodeOf cmd).toNat with
    | 0x1 =>
      if b.toNat < 2 ^ 32 then .ok (.construct (cmd.getLsbD 1) (cmd.getLsbD 0) a (b.setWidth 32) c d)
      else .error (.operandTooWide .b)
    | 0x2 => if b.toNat < 2 ^ 32 then .ok (.setBuffer a (b.setWidth 32)) else .error (.operandTooWide .b)
    | 0x3 => if a.toNat < 2 ^ 8 then .ok (.forceBitslip (a.setWidth 8)) else .error (.operandTooWide .a)
    | 0x4 => .ok .synchronize
    | 0x5 => .ok .isSynchronized
    | 0x6 => .ok .getBitslip
    | 0x7 => .ok (.process (cmd.getLsbD 0))
    | 0x8 => .ok .getPacketBuffer
    | 0x9 => .ok .getBer
    | 0xA => .ok (.decodeEvent a)
    | 0xB => .ok (.decodeStatistics a b)
    | 0xC => .ok (.decodeExtension a)
    | _ => .ok (.reserved cmd)

/-! ### The frame word -/

/-- The control row of a BTF's name; `b` is the BTF's value and `x` is `F[55:0]` (R42, R43). -/
def controlRow (n : BtfName) (b : Byte) (x : BitVec 56) : Instr :=
  match n with
  | .idle => .ctrlIdle x
  | .nfc => .ctrlNfc x
  | .ufc => .ctrlUfc x
  | .sep => .ctrlSep x
  | .sep7 => .ctrlSep7 x
  | .k0 => .ctrlK0 x
  | .k1 => .ctrlK1 x
  | .k2 => .ctrlK2 x
  | .k3 => .ctrlK3 x
  | .k4 => .ctrlK4 x
  | .k5 => .ctrlK5 x
  | .k6 => .ctrlK6 x
  | .k7 => .ctrlK7 x
  | .k8 => .ctrlK8 x
  | .res => .ctrlRes x
  | .other => .ctrlOther b x

/-- The control row of a payload, by its BTF `F[63:56]` (R42, R43). -/
def decodeControl (payload : Payload) : Instr :=
  controlRow (btfName (payload.extractLsb' 56 8)) (payload.extractLsb' 56 8) (payload.extractLsb' 0 56)

/-- The row of a decoded frame word, by its sync header `F[65:64]` (R39). -/
def decodeFrame (f : FrameWord) : Instr :=
  let payload := f.extractLsb' 0 64
  match (f.extractLsb' 64 2).toNat with
  | 1 => .data payload
  | 2 => decodeControl payload
  | 0 => .error00 payload
  | _ => .error11 payload

/-! ### Decoding and encoding -/

/-- The instruction of the bits at an input. Every command word decodes: a reserved one to RESERVED. -/
def decode : Request → Except Reject Instr
  | .command cmd a b c d => decodeCommand cmd a b c d
  | .frame f => .ok (decodeFrame f)
  | .event d => .ok (.eventPacket (eventOfBits d))
  | .extension d => .ok (.extensionPacket (extensionOfBits d))
  | .statistics c => .ok (.statisticsPacket (statisticsOfBits c))

/-- A command word with its inputs; an input the command does not name is 0. -/
def commandRequest (cmd : Byte) (a b : BitVec 64) (c : Byte) (d : Word) : Request :=
  .command cmd a b c d

/-- The frame word of a sync header and a payload (R38). -/
def frameOf (sync : BitVec 2) (payload : Payload) : FrameWord := sync ++ payload

/-- The frame word of a control frame of BTF `b` (R42). -/
def controlFrame (b : Byte) (x : BitVec 56) : FrameWord := frameOf 0b10 (b ++ x)

/-- CONSTRUCT's command word `0001 00pc` (R52). -/
def constructWord (useDefaultSample useDefaultPct : Bool) : Byte :=
  (0b000100 : BitVec 6) ++ BitVec.ofBool useDefaultSample ++ BitVec.ofBool useDefaultPct

/-- PROCESS's command word `0111 000d` (R52). -/
def processWord (discardControl : Bool) : Byte :=
  (0b0111000 : BitVec 7) ++ BitVec.ofBool discardControl

/-- The bits of an instruction, from the tables of R42, R44, R47, R48 and R52. -/
def encode : Instr → Request
  | .construct p c buf0 size pct ss => commandRequest (constructWord p c) buf0 (size.setWidth 64) pct ss
  | .setBuffer buf1 size => commandRequest 0x20 buf1 (size.setWidth 64) 0 0
  | .forceBitslip s => commandRequest 0x30 (s.setWidth 64) 0 0 0
  | .synchronize => commandRequest 0x40 0 0 0 0
  | .isSynchronized => commandRequest 0x50 0 0 0 0
  | .getBitslip => commandRequest 0x60 0 0 0 0
  | .process d => commandRequest (processWord d) 0 0 0 0
  | .getPacketBuffer => commandRequest 0x80 0 0 0 0
  | .getBer => commandRequest 0x90 0 0 0 0
  | .decodeEvent d => commandRequest 0xA0 d 0 0 0
  | .decodeStatistics d1 d2 => commandRequest 0xB0 d1 d2 0 0
  | .decodeExtension d => commandRequest 0xC0 d 0 0 0
  | .reserved cmd => commandRequest cmd 0 0 0 0
  | .data d => .frame (frameOf 0b01 d)
  | .ctrlIdle x => .frame (controlFrame (btfCode .idle) x)
  | .ctrlNfc x => .frame (controlFrame (btfCode .nfc) x)
  | .ctrlUfc x => .frame (controlFrame (btfCode .ufc) x)
  | .ctrlSep x => .frame (controlFrame (btfCode .sep) x)
  | .ctrlSep7 x => .frame (controlFrame (btfCode .sep7) x)
  | .ctrlK0 x => .frame (controlFrame (btfCode .k0) x)
  | .ctrlK1 x => .frame (controlFrame (btfCode .k1) x)
  | .ctrlK2 x => .frame (controlFrame (btfCode .k2) x)
  | .ctrlK3 x => .frame (controlFrame (btfCode .k3) x)
  | .ctrlK4 x => .frame (controlFrame (btfCode .k4) x)
  | .ctrlK5 x => .frame (controlFrame (btfCode .k5) x)
  | .ctrlK6 x => .frame (controlFrame (btfCode .k6) x)
  | .ctrlK7 x => .frame (controlFrame (btfCode .k7) x)
  | .ctrlK8 x => .frame (controlFrame (btfCode .k8) x)
  | .ctrlRes x => .frame (controlFrame (btfCode .res) x)
  | .ctrlOther b x => .frame (controlFrame b x)
  | .error00 x => .frame (frameOf 0b00 x)
  | .error11 x => .frame (frameOf 0b11 x)
  | .eventPacket p => .event (eventToBits p)
  | .extensionPacket p => .extension (extensionToBits p)
  | .statisticsPacket p => .statistics (statisticsToBits p)

/-! ### The host's numbering of an instruction's bits -/

/-- The request of an opcode-table row's bits `w` (log 20). The width tells the input: 8 bits the command word, with its
operand inputs 0; 176 bits the command word and its inputs A, B, C, D above it; 66 bits, or 72 in whole bytes, a frame
word; 64 bits a payload at the event decoder; 128 bits a statistics packet. -/
def requestOfTable (nbits w : Nat) : Option Request :=
  if w < 2 ^ nbits then
    match nbits with
    | 8 => some (.command (BitVec.ofNat 8 w) 0 0 0 0)
    | 176 =>
      some (.command (BitVec.ofNat 8 w) (BitVec.ofNat 64 (w / 2 ^ 8)) (BitVec.ofNat 64 (w / 2 ^ 72))
        (BitVec.ofNat 8 (w / 2 ^ 136)) (BitVec.ofNat 32 (w / 2 ^ 144)))
    | 66 => some (.frame (BitVec.ofNat 66 w))
    | 72 => if w < 2 ^ 66 then some (.frame (BitVec.ofNat 66 w)) else none
    | 64 => some (.event (BitVec.ofNat 64 w))
    | 128 => some (.statistics (BitVec.ofNat 128 w))
    | _ => none
  else none

/-- The instruction the decoder reads from an opcode-table row's bits. -/
def decodeTableWord (nbits w : Nat) : Option Instr :=
  match requestOfTable nbits w with
  | none => none
  | some r =>
    match decode r with
    | .ok i => some i
    | .error _ => none

end Sys2Proof
end

