-- ==== Sys2Proof/Config.lean ====
section
/-! DEFINITION. What an implementation fixes (the parameters the spec leaves to the model) and the free values: constants
with no body, so that no proof can see what they are. -/

namespace Sys2Proof

/-- The parameters of 00_scope.md R5 that a model takes as an argument. State holds them and no step changes them (log 6):
a statement over every state holds for every value of them. -/
structure Params where
  /-- MAX_WORDS, the largest buffer size the hardware accepts (OPEN, decision D6). -/
  maxWords : Nat
  /-- FRAME0_POLICY (decision D12). -/
  frame0Policy : Frame0Policy
  deriving DecidableEq, Repr

namespace Config

/-- The free value of `fault_info` after CONSTRUCT (45_receiver_commands.md R102 "`fault_info` becomes unspecified"; log 11). -/
opaque freeFaultInfo : Nat → FaultInfo

/-- The free value of `ber_counter` after a BoundsViolation in PROCESS (60_exceptions.md R120; log 12). -/
opaque freeBer : Nat → Nat

/-- The free value of `packets` after a BoundsViolation in PROCESS (60_exceptions.md R120; log 12). -/
opaque freePackets : Nat → List FrameRecord

end Config

end Sys2Proof
end

