-- ==== Sys2Proof/Machine/State.lean ====
section
/-! DEFINITION. The state of the block (10_state.md), what it answers (45_receiver_commands.md R101, 60_exceptions.md R123),
the host's moves (20_memory.md R32 to R34) and the state at power-on (10_state.md R22, 70_reset_and_hazards.md R130). -/

namespace Sys2Proof.Machine

/-- The host's regions as bytes: addresses strictly rising, no entry equal to what an unlisted address reads as (log 3, log 4). -/
abbrev Memory := List Host.Cell

/-- The status codes of 60_exceptions.md R123. -/
inductive Status where
  | ok
  | refusedReserved
  | refusedUnconfigured
  | refusedFaulted
  | refusedOperand
  | boundsViolation
  deriving DecidableEq, Repr

/-- A request's result value (the Result line of each rule of 45_receiver_commands.md). -/
inductive Result where
  /-- No result: R102, R103, R104, R108 and every refusal. -/
  | noResult
  /-- One bit: R105, R106. -/
  | flag (b : Bool)
  /-- Eight bits: R107. -/
  | byte (v : Byte)
  /-- The count, then each record's type code and payload: R109. -/
  | records (count : Nat) (recs : List (BitVec 2 × Payload))
  /-- An unsigned value: R110. -/
  | number (v : Nat)
  /-- R111. -/
  | event (r : EventRecord)
  /-- R112. -/
  | statistics (r : StatisticsRecord)
  /-- R113. -/
  | extension (r : ExtensionRecord)
  /-- The `fault_info` of a BOUNDS_VIOLATION: R120. -/
  | faultInfo (fi : FaultInfo)
  /-- A frame row's record, its control kind, and what the frame adds to PROCESS's error count: 43_frame_iterator.md R81,
  R90, R85 (log 7). -/
  | frame (r : FrameRecord) (kind : Option BtfName) (errors : Nat)
  deriving DecidableEq, Repr

/-- What the host receives: `Step(cmd, A, B, C, D) → (status, result)` (R101). -/
structure Reply where
  status : Status
  result : Result
  deriving DecidableEq, Repr

/-- What the host, the block's only partner, does next (20_memory.md R32). -/
inductive HostMove where
  /-- Write word `i` of a region, between commands (R34). -/
  | store (h : Handle) (i : Nat) (w : Word)
  /-- Power the block on (70_reset_and_hazards.md R130; log 13). -/
  | powerOn
  /-- Present a request and wait for its completion (R32; 30_encoding.md R51). -/
  | present (r : Request)
  deriving DecidableEq, Repr

/-- The whole machine. -/
structure State where
  /-- The hardware's parameters; no step changes them (log 6). -/
  hw : Params
  /-- R17. -/
  configured : Bool
  /-- R10. -/
  buf : Handle
  /-- `N`, R10. -/
  n : Word
  /-- R11. -/
  bitslip : BitVec 6
  /-- R12. -/
  synced : Bool
  /-- R13. -/
  sampleSize : Word
  /-- R14. -/
  threshold : Word
  /-- R15. -/
  berCounter : Nat
  /-- R16. -/
  packets : List FrameRecord
  /-- R18. -/
  fault : Bool
  /-- R18. -/
  faultInfo : FaultInfo
  /-- R23: the words the handles name. -/
  mem : Memory
  /-- The host's next moves, oldest first (log 10). -/
  inbox : List HostMove
  /-- The last request's status and result (log 9). -/
  reply : Option Reply
  /-- How many free values have been used (log 11, log 12). -/
  freeCount : Nat
  deriving DecidableEq, Repr

/-- The reasons a step stops with a fault. No command raises one: BoundsViolation is the state FAULTED, and the block
keeps stepping (10_state.md R18). -/
inductive Fault where
  /-- Raised by the host's own move `store` on a word index no buffer can have: a buffer has at most 2^32 - 1 words
  (decision D5), so indices from 2^32 on exist in no region. Safe: the machine stops where nothing is specified (log 14). -/
  | noSuchWord (i : Nat)
  deriving DecidableEq, Repr

/-- The reasons a step is refused. The refusals of 60_exceptions.md R122 are not among them: they are replies. -/
inductive Refusal where
  /-- Raised by an arm of exec whose instruction has no meaning yet. Safe. -/
  | notModelled (mnemonic : String)
  /-- Raised by step when the decoder rejects the bits at an input: an operand wider than its input, which a host cannot
  present (30_encoding.md R52). Safe (log 1). -/
  | undecodable (why : Reject)
  deriving DecidableEq, Repr

/-- Power-on (10_state.md R22, 70_reset_and_hazards.md R130): `configured` and `fault` are false. Every other element is
unspecified there and holds the value log 5 names; the parameters are log 6's. -/
def State.reset : State where
  hw := { maxWords := 2 ^ 32 - 1, frame0Policy := .discard }
  configured := false
  buf := 0
  n := 0
  bitslip := 0
  synced := false
  sampleSize := 0
  threshold := 0
  berCounter := 0
  packets := []
  fault := false
  faultInfo := .underflow
  mem := []
  inbox := []
  reply := none
  freeCount := 0

end Sys2Proof.Machine
end

