-- ==== Sys2Proof/Machine/Operands.lean ====
section
/-! DEFINITION. The operand forms and values of the commands: the source's constants (00_scope.md R5), CONSTRUCT's defaults
and clamps (45_receiver_commands.md R102), the record type code (30_encoding.md R50), the enumerations of the event
packet (R45, R46) and the control kind (43_frame_iterator.md R90). -/

namespace Sys2Proof.Machine

/-- FRAME_BITS (R5). -/
abbrev frameBits : Nat := 66

/-- WORD_BITS (R5). -/
abbrev wordBits : Nat := 32

/-- SLIP_CANDIDATES (R5). -/
abbrev slipCandidates : Nat := 64

/-- PREFIX_FRAMES (R5). -/
abbrev prefixFrames : Nat := 5

/-- DEFAULT_PCT (R5). -/
abbrev defaultPct : Byte := 90

/-- DEFAULT_SAMPLE (R5). -/
abbrev defaultSample : Word := 64

/-- PCT_MAX (R5). -/
abbrev pctMax : Nat := 100

/-- CONSTRUCT's `pct`: DEFAULT_PCT when cmd[0] = 1 (R102). -/
def selectPct (useDefault : Bool) (pct : Byte) : Byte := if useDefault then defaultPct else pct

/-- CONSTRUCT's requested sample size: DEFAULT_SAMPLE when cmd[1] = 1 (R102). -/
def selectSample (useDefault : Bool) (ss : Word) : Word := if useDefault then defaultSample else ss

/-- `sample_size <- (size <= ss) ? size : ss` (R102, 10_state.md R13). -/
def clampSample (size ss : Word) : Word := if size.toNat ≤ ss.toNat then size else ss

/-- `threshold <- (sample_size * min(pct, 100)) div 100`, exact (R102, 10_state.md R14, 00_scope.md R8). -/
def thresholdOf (sampleSize : Word) (pct : Byte) : Word :=
  BitVec.ofNat 32 (sampleSize.toNat * min pct.toNat pctMax / 100)

/-- The 2-bit type code of a record (30_encoding.md R50). -/
def typeCode : FrameClass → BitVec 2
  | .data => 0b01
  | .control => 0b10
  | .error => 0b00

/-- A record as GET_PACKET_BUFFER returns it (R109). -/
def recordWire (r : FrameRecord) : BitVec 2 × Payload := (typeCode r.cls, r.payload)

/-- `payload[63:56]` (30_encoding.md R42). -/
def btfOf (payload : Payload) : Byte := payload.extractLsb' 56 8

/-- The control kind of a record; a data or error record has none (43_frame_iterator.md R90). -/
def controlKind (r : FrameRecord) : Option BtfName :=
  if r.cls = .control then some (btfName (btfOf r.payload)) else none

/-- The channels the source enumerates (30_encoding.md R45). -/
inductive Channel where
  | ch (i : Fin 8)
  | trigger
  deriving DecidableEq, Repr

/-- The enumerator of a channel value; 9 to 15 have none (R45). -/
def channelName (c : BitVec 4) : Option Channel :=
  if h : c.toNat < 8 then some (.ch ⟨c.toNat, h⟩) else if c = 8 then some .trigger else none

/-- The event types (30_encoding.md R46). -/
inductive EventType where
  | toaNonlinearTot
  | toaOnly
  | linearTotOnly
  | toaLinearTot
  deriving DecidableEq, Repr

/-- The enumerator of a type value; all four are defined (R46). -/
def eventTypeName (t : BitVec 2) : EventType :=
  match t.toNat with
  | 0 => .toaNonlinearTot
  | 1 => .toaOnly
  | 2 => .linearTotOnly
  | _ => .toaLinearTot

end Sys2Proof.Machine
end

