-- ==== Sys2Proof/Machine/Flags.lean ====
section
/-! DEFINITION. The flag computations: sync header validity, class and error count (42_alignment.md R69,
43_frame_iterator.md R80, R85), the parities and validity flags of the event packet (44_packet_decoders.md R92, R94, R95),
and the status codes (60_exceptions.md R123). -/

namespace Sys2Proof.Machine

/-- A header is valid iff it is 01 or 10 (30_encoding.md R39, R69). -/
def syncValid (sync : Byte) : Bool := sync == 0b01 || sync == 0b10

/-- `Classify(sync)` (43_frame_iterator.md R80). -/
def classify (sync : BitVec 2) : FrameClass :=
  match sync.toNat with
  | 1 => .data
  | 2 => .control
  | _ => .error

/-- What a frame adds to the error count: 1 for class error (43_frame_iterator.md R85, R88). -/
def errorsOf (cls : FrameClass) : Nat := if cls = .error then 1 else 0

/-- The number of 1 bits among bits `0 .. m-1` (00_scope.md R9). -/
def popcountBelow {w : Nat} (v : BitVec w) : Nat → Nat
  | 0 => 0
  | m + 1 => popcountBelow v m + (v.getLsbD m).toNat

/-- `popcount(v)` (R9). -/
def popcount {w : Nat} (v : BitVec w) : Nat := popcountBelow v w

/-- `parity(v) = popcount(v) mod 2`, true for 1 (44_packet_decoders.md R92). -/
def parity {w : Nat} (v : BitVec w) : Bool := popcount v % 2 == 1

/-- A field's validity flag: computed parity equal to the stored parity bit (R94). -/
def fieldOk {w : Nat} (v : BitVec w) (stored : Bool) : Bool := parity v == stored

/-- `has_valid_parity`, from the stored parity bits alone (R95). -/
def hasValidParity (p : EventPacket) : Bool := (((p.chP ^^ p.tP) ^^ p.tsP) ^^ p.pwP) == p.combinedP

/-- The code of a status (60_exceptions.md R123). -/
def statusCode : Status → Nat
  | .ok => 0
  | .refusedReserved => 1
  | .refusedUnconfigured => 2
  | .refusedFaulted => 3
  | .refusedOperand => 4
  | .boundsViolation => 5

end Sys2Proof.Machine
end

