-- ==== Sys2Proof/Machine/Ops.lean ====
section
/-! DEFINITION. The named operations over memory and registers: the buffer's words (20_memory.md R23, R24), the packet buffer
(10_state.md R16), replies and the gate of 45_receiver_commands.md R101, raising a BoundsViolation (60_exceptions.md
R120), and the host's moves. -/

namespace Sys2Proof.Machine

/-! ### Memory -/

/-- What an unlisted address reads as. DESIGN CHOICE (log 4). -/
def unlistedByte : Byte := 0

/-- The byte at an address. -/
def readByte : Memory → Nat → Byte
  | [], _ => unlistedByte
  | (b, v) :: rest, a => if b = a then v else readByte rest a

/-- Write one byte, keeping the canonical form: writing `unlistedByte` removes the entry. -/
def writeByte : Memory → Nat → Byte → Memory
  | [], a, v => if v = unlistedByte then [] else [(a, v)]
  | (b, w) :: rest, a, v =>
    if a < b then (if v = unlistedByte then (b, w) :: rest else (a, v) :: (b, w) :: rest)
    else if a = b then (if v = unlistedByte then rest else (a, v) :: rest)
    else (b, w) :: writeByte rest a v

/-- Every address from `lo` on, strictly rising, and no entry an unlisted byte. -/
def wfFrom : Nat → Memory → Bool
  | _, [] => true
  | lo, (b, v) :: rest => decide (lo ≤ b) && (v != unlistedByte && wfFrom (b + 1) rest)

/-- The canonical form of memory. -/
def Memory.wf (m : Memory) : Bool := wfFrom 0 m

/-- Where byte 0 of word `i` of a region lies. Regions are disjoint: each has room for 2^32 words (log 3). -/
def wordAddr (h : Handle) (i : Nat) : Nat := h.toNat * 2 ^ 34 + 4 * i

/-- The value of word `i` of a region. The high byte lies first, DESIGN CHOICE (log 3): the byte order in host memory is
outside the block (20_memory.md R27). -/
def readWord (m : Memory) (h : Handle) (i : Nat) : Word :=
  let a := wordAddr h i
  readByte m a ++ readByte m (a + 1) ++ readByte m (a + 2) ++ readByte m (a + 3)

/-- Write word `i` of a region (a host move: the block never writes the buffer, R25). -/
def writeWord (m : Memory) (h : Handle) (i : Nat) (w : Word) : Memory :=
  let a := wordAddr h i
  writeByte (writeByte (writeByte (writeByte m a (w.extractLsb' 24 8)) (a + 1) (w.extractLsb' 16 8))
    (a + 2) (w.extractLsb' 8 8)) (a + 3) (w.extractLsb' 0 8)

/-- `MemRead(i, 1)`: word `i` of the attached buffer, or BoundsViolation(i) when `i ≥ N` (20_memory.md R24). -/
def memRead (s : State) (i : Nat) : Except FaultInfo Word :=
  if i < s.n.toNat then .ok (readWord s.mem s.buf i) else .error (.word i)

/-! ### Replies, refusals, the gate -/

/-- Return a status and a result to the host (R101). -/
def State.answer (s : State) (status : Status) (result : Result) : State :=
  { s with reply := some { status := status, result := result } }

/-- A refused command returns no result and writes no state (60_exceptions.md R122). -/
def State.refuse (s : State) (status : Status) : State := s.answer status .noResult

/-- The gate of R101 in the priority of 60_exceptions.md R124: FAULTED before UNCONFIGURED, both before the body. -/
def gated (s : State) (body : State → Host.Outcome State Fault Refusal) : Host.Outcome State Fault Refusal :=
  if s.fault then .next (s.refuse .refusedFaulted)
  else if s.configured then body s
  else .next (s.refuse .refusedUnconfigured)

/-- Taking a BoundsViolation (60_exceptions.md R120, steps 2 and 3): `fault` and `fault_info` are set and the status is
BOUNDS_VIOLATION with `fault_info` as the result. -/
def State.raiseBounds (s : State) (fi : FaultInfo) : State :=
  { s with fault := true, faultInfo := fi }.answer .boundsViolation (.faultInfo fi)

/-! ### Registers -/

/-- The state after CONSTRUCT (10_state.md R22, 45_receiver_commands.md R102), which is also the return from FAULTED
(60_exceptions.md R126). `fault_info` becomes unspecified: a free value (log 11). -/
def State.constructed (s : State) (buf0 : Handle) (size : Word) (pct : Byte) (ss : Word) : State :=
  { s with
    configured := true
    buf := buf0
    n := size
    bitslip := 0
    synced := false
    sampleSize := clampSample size ss
    threshold := thresholdOf (clampSample size ss) pct
    berCounter := 0
    packets := []
    fault := false
    faultInfo := Config.freeFaultInfo s.freeCount
    freeCount := s.freeCount + 1 }

/-- SET_BUFFER's writes (R103). -/
def State.attach (s : State) (buf1 : Handle) (size : Word) : State :=
  { s with buf := buf1, n := size }

/-- FORCE_BITSLIP's write (R104). -/
def State.setSlip (s : State) (slip : BitVec 6) : State :=
  { s with bitslip := slip }

/-- `Accept(c)` (42_alignment.md R74). -/
def State.acceptSlip (s : State) (c : Nat) : State :=
  { s with bitslip := BitVec.ofNat 6 c, synced := true }

/-- Step 1 of PROCESS: clear the packet buffer and the error counter (43_frame_iterator.md R85). -/
def State.beginProcess (s : State) : State :=
  { s with packets := [], berCounter := 0 }

/-- Step 4 of PROCESS: the count becomes `(count * 100) div (mf + 1)` (R85, R88). -/
def State.finishProcess (s : State) (mf : Nat) : State :=
  { s with berCounter := s.berCounter * 100 / (mf + 1) }

/-- What a BoundsViolation leaves of PROCESS's own elements: unspecified, so free values (60_exceptions.md R120; log 12). -/
def State.abandonProcess (s : State) : State :=
  { s with
    packets := Config.freePackets s.freeCount
    berCounter := Config.freeBer s.freeCount
    freeCount := s.freeCount + 1 }

/-- The error count goes up by what frame `cls` adds to it (R85). -/
def State.countError (s : State) (cls : FrameClass) : State :=
  { s with berCounter := s.berCounter + errorsOf cls }

/-- `PktPush(rec)` (10_state.md R16). -/
def State.pktPush (s : State) (r : FrameRecord) : State :=
  { s with packets := s.packets ++ [r] }

/-! ### The host's moves -/

/-- The host writes a word between commands (20_memory.md R34). An index no buffer can have faults (log 14). -/
def hostStore (h : Handle) (i : Nat) (w : Word) (s : State) : Host.Outcome State Fault Refusal :=
  if i < 2 ^ 32 then .next { s with mem := writeWord s.mem h i w } else .fault (.noSuchWord i)

/-- Power-on (70_reset_and_hazards.md R130): the block's elements as in `State.reset`. The hardware's parameters, the
host's memory and the host's script are not the block's to reset (log 13). -/
def hostPowerOn (s : State) : Host.Outcome State Fault Refusal :=
  .next { State.reset with hw := s.hw, mem := s.mem, inbox := s.inbox, freeCount := s.freeCount }

end Sys2Proof.Machine
end

