-- ==== Sys2Proof/Machine/Commands.lean ====
section
/-! DEFINITION. The configuration and readout commands (45_receiver_commands.md R102 to R104, R106, R107, R109, R110) and the
refusal of a reserved command word (30_encoding.md R53). -/

namespace Sys2Proof.Machine

/-- CONSTRUCT (R102). It passes no gate: it runs before any CONSTRUCT and while FAULTED (R101). -/
def execConstruct (useDefaultSample useDefaultPct : Bool) (buf0 : Handle) (size : Word) (pct : Byte) (ss : Word)
    (s : State) : Host.Outcome State Fault Refusal :=
  if s.hw.maxWords < size.toNat then .next (s.refuse .refusedOperand)
  else
    .next ((s.constructed buf0 size (selectPct useDefaultPct pct) (selectSample useDefaultSample ss)).answer .ok .noResult)

/-- SET_BUFFER once the gate is passed (R103). -/
def setBufferBody (buf1 : Handle) (size : Word) (s : State) : Host.Outcome State Fault Refusal :=
  if s.hw.maxWords < size.toNat then .next (s.refuse .refusedOperand)
  else .next ((s.attach buf1 size).answer .ok .noResult)

/-- SET_BUFFER (R103). -/
def execSetBuffer (buf1 : Handle) (size : Word) (s : State) : Host.Outcome State Fault Refusal :=
  gated s (setBufferBody buf1 size)

/-- FORCE_BITSLIP once the gate is passed (R104). -/
def forceBitslipBody (slip : Byte) (s : State) : Host.Outcome State Fault Refusal :=
  if slipCandidates ≤ slip.toNat then .next (s.refuse .refusedOperand)
  else .next ((s.setSlip (slip.setWidth 6)).answer .ok .noResult)

/-- FORCE_BITSLIP (R104). -/
def execForceBitslip (slip : Byte) (s : State) : Host.Outcome State Fault Refusal := gated s (forceBitslipBody slip)

/-- A readout once the gate is passed: the result, and nothing written. -/
def readoutBody (value : State → Result) (s : State) : Host.Outcome State Fault Refusal := .next (s.answer .ok (value s))

/-- IS_SYNCHRONIZED's result (R106). -/
def syncedResult (s : State) : Result := .flag s.synced

/-- IS_SYNCHRONIZED (R106). -/
def execIsSynchronized (s : State) : Host.Outcome State Fault Refusal := gated s (readoutBody syncedResult)

/-- GET_BITSLIP's result, `zext_8(bitslip)` (R107). -/
def bitslipResult (s : State) : Result := .byte (s.bitslip.setWidth 8)

/-- GET_BITSLIP (R107). -/
def execGetBitslip (s : State) : Host.Outcome State Fault Refusal := gated s (readoutBody bitslipResult)

/-- GET_PACKET_BUFFER's result: the count, then the records (R109). -/
def packetsResult (s : State) : Result := .records s.packets.length (s.packets.map recordWire)

/-- GET_PACKET_BUFFER (R109); reading consumes nothing. -/
def execGetPacketBuffer (s : State) : Host.Outcome State Fault Refusal := gated s (readoutBody packetsResult)

/-- GET_BER's result (R110). -/
def berResult (s : State) : Result := .number s.berCounter

/-- GET_BER (R110). -/
def execGetBer (s : State) : Host.Outcome State Fault Refusal := gated s (readoutBody berResult)

/-- RESERVED (30_encoding.md R53, 60_exceptions.md R122): refused before anything else is looked at (R124). -/
def execReserved (_cmd : Byte) (s : State) : Host.Outcome State Fault Refusal :=
  .next (s.refuse .refusedReserved)

end Sys2Proof.Machine
end

