-- ==== Sys2Proof/Machine/Decoders.lean ====
section
/-! DEFINITION. The application packet decoders (44_packet_decoders.md), the three decoder commands (45_receiver_commands.md
R111 to R113) and the packet rows of the opcode table, each its decoder on a packet of that layout (log 8). None passes
the gate and none writes state (R99, R101). -/

namespace Sys2Proof.Machine

/-- The event record of a packet's fields: values, flags, stored parity bits, has_valid_parity (R94 to R96). -/
def eventRecord (p : EventPacket) : EventRecord where
  channel := p.channel
  channelOk := fieldOk p.channel p.chP
  evType := p.evType
  typeOk := fieldOk p.evType p.tP
  timestamp := p.timestamp
  timestampOk := fieldOk p.timestamp p.tsP
  pulseWidth := p.pulseWidth
  pulseWidthOk := fieldOk p.pulseWidth p.pwP
  debug := p.debug
  chP := p.chP
  tP := p.tP
  tsP := p.tsP
  pwP := p.pwP
  combinedP := p.combinedP
  hasValidParity := hasValidParity p

/-- The five counters of a packet (R97). -/
def statisticsRecord (p : StatisticsPacket) : StatisticsRecord where
  fifoDrop := p.fifoDrop
  pwidthDrop := p.pwidthDrop
  dcountDrop := p.dcountDrop
  triggerDrop := p.triggerDrop
  pulseError := p.pulseError

/-- The three fields of a packet (R98). -/
def extensionRecord (p : ExtensionPacket) : ExtensionRecord where
  packetCount := p.packetCount
  coarseCounter := p.coarseCounter
  resetFlag := p.resetFlag

/-- `DecodeEvent(D)` (R96). -/
def decodeEventPayload (d : Payload) : EventRecord := eventRecord (eventOfBits d)

/-- `DecodeStatistics(D1, D2)` with `C = D1 ∥ D2` (R97). -/
def decodeStatisticsPayloads (d1 d2 : Payload) : StatisticsRecord := statisticsRecord (statisticsOfBits (d1 ++ d2))

/-- `DecodeExtension(D)` (R98). -/
def decodeExtensionPayload (d : Payload) : ExtensionRecord := extensionRecord (extensionOfBits d)

/-- DECODE_EVENT (45_receiver_commands.md R111). -/
def execDecodeEvent (d : Payload) (s : State) : Host.Outcome State Fault Refusal :=
  .next (s.answer .ok (.event (decodeEventPayload d)))

/-- DECODE_STATISTICS (45_receiver_commands.md R112). -/
def execDecodeStatistics (d1 d2 : Payload) (s : State) : Host.Outcome State Fault Refusal :=
  .next (s.answer .ok (.statistics (decodeStatisticsPayloads d1 d2)))

/-- DECODE_EXTENSION (45_receiver_commands.md R113). -/
def execDecodeExtension (d : Payload) (s : State) : Host.Outcome State Fault Refusal :=
  .next (s.answer .ok (.extension (decodeExtensionPayload d)))

/-- EVENT_PACKET (30_encoding.md R44). -/
def execEventPacket (p : EventPacket) (s : State) : Host.Outcome State Fault Refusal :=
  .next (s.answer .ok (.event (eventRecord p)))

/-- EXTENSION_PACKET (30_encoding.md R48). -/
def execExtensionPacket (p : ExtensionPacket) (s : State) : Host.Outcome State Fault Refusal :=
  .next (s.answer .ok (.extension (extensionRecord p)))

/-- STATISTICS_PACKET (30_encoding.md R47). -/
def execStatisticsPacket (p : StatisticsPacket) (s : State) : Host.Outcome State Fault Refusal :=
  .next (s.answer .ok (.statistics (statisticsRecord p)))

end Sys2Proof.Machine
end

