-- ==== Sys2Proof/Machine/Descrambler.lean ====
section
/-! DEFINITION. The self-synchronous descrambler x⁵⁸ + x³⁹ + 1 (41_descrambler.md) and, as a test aid, its inverse. Both are
pure functions: the previous-raw register is local to the call (R67). -/

namespace Sys2Proof.Machine

/-- TAP_A (00_scope.md R5). -/
abbrev tapA : Nat := 39

/-- TAP_B (00_scope.md R5). -/
abbrev tapB : Nat := 58

/-- Step 1 of R63: shift left by one, the new bit into the LSB. -/
def shiftIn (p : Payload) (bit : Bool) : Payload := (p <<< 1) ||| (BitVec.ofBool bit).setWidth 64

/-- `out` with bit `i`, still 0 in it, set to `bit`. -/
def putBit (out : Payload) (i : Nat) (bit : Bool) : Payload := out ||| ((BitVec.ofBool bit).setWidth 64 <<< i)

/-- The loop of R63 over the bits `m-1` down to 0 of `r`, with the register `p` and the output so far; it returns both. -/
def descrambleLoop (r : Payload) : Nat → Payload → Payload → Payload × Payload
  | 0, p, out => (p, out)
  | i + 1, p, out =>
    let p' := shiftIn p (r.getLsbD i)
    descrambleLoop r i p' (putBit out i ((p'.getLsbD 0 ^^ p'.getLsbD tapA) ^^ p'.getLsbD tapB))

/-- `Descramble(P0, R)` (R63). -/
def descramble (p0 r : Payload) : Payload := (descrambleLoop r 64 p0 0).2

/-- The register P after the 64 steps (R65). -/
def descrambleLast (p0 r : Payload) : Payload := (descrambleLoop r 64 p0 0).1

/-- The closed form of R64. -/
def descrambleClosed (p0 r : Payload) : Payload :=
  r ^^^ (r >>> 39) ^^^ (p0 <<< 25) ^^^ (r >>> 58) ^^^ (p0 <<< 6)

/-- The loop of R68's Scramble, a test aid and no part of the block. -/
def scrambleLoop (x : Payload) : Nat → Payload → Payload → Payload
  | 0, _, out => out
  | i + 1, q, out =>
    let y := (x.getLsbD i ^^ q.getLsbD (tapA - 1)) ^^ q.getLsbD (tapB - 1)
    scrambleLoop x i (shiftIn q y) (putBit out i y)

/-- `Scramble(P0, X)` (R68), a test aid. -/
def scramble (p0 x : Payload) : Payload := scrambleLoop x 64 p0 0

end Sys2Proof.Machine
end

