-- ==== Sys2Proof/Machine/Extractor.lean ====
section
/-! DEFINITION. The bit extractor (40_bit_extractor.md): frame positions, SyncRead and PayloadRead as word reads, and the
stream definitions they must agree with (00_scope.md R6, 30_encoding.md R38 to R40). A slip is an argument, since the
alignment search reads with a candidate in place of the register (42_alignment.md R69). -/

namespace Sys2Proof.Machine

/-! ### Positions -/

/-- `pos(k) = slip + 66·k` (30_encoding.md R38). -/
def framePos (slip k : Nat) : Nat := slip + frameBits * k

/-- R55. -/
def syncIndex (slip k : Nat) : Nat := framePos slip k / wordBits

/-- R56. -/
def syncShift (slip k : Nat) : Nat := framePos slip k % wordBits

/-! ### The stream definitions -/

/-- `StreamBit(b)` of the attached buffer (00_scope.md R6), for positions inside the buffer. -/
def streamBit (s : State) (b : Nat) : Bool := (readWord s.mem s.buf (b / 32)).getLsbD (31 - b % 32)

/-- `sync(k)` at a slip (30_encoding.md R39): the first stream bit is the high bit. -/
def streamSync (s : State) (slip k : Nat) : BitVec 2 :=
  BitVec.ofBool (streamBit s (framePos slip k)) ++ BitVec.ofBool (streamBit s (framePos slip k + 1))

/-- The number whose binary digits are `len` stream bits from position `p`, the first the most significant. -/
def streamNumber (s : State) (p : Nat) : Nat → Nat
  | 0 => 0
  | len + 1 => 2 * streamNumber s p len + (streamBit s (p + len)).toNat

/-- `raw(k)` at a slip (30_encoding.md R40). -/
def streamRaw (s : State) (slip k : Nat) : Payload := BitVec.ofNat 64 (streamNumber s (framePos slip k + 2) 64)

/-! ### The word-level reads -/

/-- `SyncRead(k)` at a slip (R58): the 2 sync bits as the low bits of an 8-bit value. -/
def syncRead (s : State) (slip k : Nat) : Except FaultInfo Byte :=
  let i := syncIndex slip k
  let sh := syncShift slip k
  if sh = 31 then do
    let w0 ← memRead s i
    let w1 ← memRead s (i + 1)
    return (BitVec.ofBool (w0.getLsbD 0) ++ BitVec.ofBool (w1.getLsbD 31)).setWidth 8
  else do
    let w0 ← memRead s i
    return ((w0 &&& (0xC0000000#32 >>> sh)) >>> (30 - sh)).setWidth 8

/-- `PayloadRead(k)` at a slip (R59): `a ∥ b ∥ c`, earliest word most significant. At `sh = 30` the slice `a` is empty. -/
def payloadRead (s : State) (slip k : Nat) : Except FaultInfo Payload :=
  let i := syncIndex slip k
  let sh := syncShift slip k
  if sh = 31 then do
    let wa ← memRead s (i + 1)
    let wb ← memRead s (i + 2)
    let wc ← memRead s (i + 3)
    return wa.extractLsb' 0 31 ++ wb ++ wc.extractLsb' 31 1
  else do
    let wa ← memRead s i
    let wb ← memRead s (i + 1)
    let wc ← memRead s (i + 2)
    return (wa.extractLsb' 0 (30 - sh) ++ wb ++ wc.extractLsb' (30 - sh) (2 + sh)).setWidth 64

end Sys2Proof.Machine
end

