-- ==== Sys2Proof/Machine/FrameIterator.lean ====
section
/-! DEFINITION. The frame iterator (43_frame_iterator.md): NextFrame, MaxFrames, the loop body as one operation, the command
PROCESS (45_receiver_commands.md R108), and the frame rows of the opcode table, each a frame of its kind as the iterator
reads it (log 7). -/

namespace Sys2Proof.Machine

/-! ### Frames -/

/-- `NextFrame(k)` (R81): header, payload, then, for k > 0, descrambling with frame k-1's raw payload. -/
def nextFrame (s : State) (k : Nat) : Except FaultInfo FrameRecord := do
  let sync ← syncRead s s.bitslip.toNat k
  let r ← payloadRead s s.bitslip.toNat k
  match k with
  | 0 => return { cls := classify (sync.setWidth 2), payload := r }
  | j + 1 =>
    let p ← payloadRead s s.bitslip.toNat j
    return { cls := classify (sync.setWidth 2), payload := descramble p r }

/-- `⌊(32·N)/66⌋`, the `base` of R83. -/
def baseFrames (s : State) : Nat := wordBits * s.n.toNat / frameBits

/-- `MaxFrames()` (R83). -/
def maxFrames (s : State) : Except FaultInfo Nat :=
  if s.bitslip = 0 then .ok (baseFrames s)
  else if baseFrames s = 0 then .error .underflow
  else .ok (baseFrames s - 1)

/-- The frames whose record is not kept (R87): frame 0 under DISCARD (R82), and control frames under discard_control. -/
def skipsRecord (policy : Frame0Policy) (discardControl : Bool) (k : Nat) (r : FrameRecord) : Bool :=
  (k == 0 && policy == .discard) || (discardControl && r.cls == .control)

/-- The loop body of R85 on frame k's record: count an error, and push the record unless it is skipped. -/
def acceptFrame (discardControl : Bool) (k : Nat) (r : FrameRecord) (s : State) : State :=
  if skipsRecord s.hw.frame0Policy discardControl k r then s.countError r.cls else (s.countError r.cls).pktPush r

/-! ### PROCESS -/

/-- The loop of R85 over `m` frames from frame `k` on (R86). The frame index is local to the command (10_state.md R19). -/
def processLoop (discardControl : Bool) : Nat → Nat → State → Except FaultInfo State
  | 0, _, s => .ok s
  | m + 1, k, s => do
    let r ← nextFrame s k
    processLoop discardControl m (k + 1) (acceptFrame discardControl k r s)

/-- `Process(discard_control)` (R85). -/
def process (discardControl : Bool) (s : State) : Except FaultInfo State := do
  let s1 := s.beginProcess
  let mf ← maxFrames s1
  let s2 ← processLoop discardControl mf 0 s1
  return s2.finishProcess mf

/-- PROCESS once the gate is passed. A BoundsViolation leaves `packets` and `ber_counter` unspecified (60_exceptions.md
R120). -/
def processBody (discardControl : Bool) (s : State) : Host.Outcome State Fault Refusal :=
  match process discardControl s with
  | .ok t => .next (t.answer .ok .noResult)
  | .error fi => .next (s.abandonProcess.raiseBounds fi)

/-- PROCESS (45_receiver_commands.md R108). -/
def execProcess (discardControl : Bool) (s : State) : Host.Outcome State Fault Refusal :=
  gated s (processBody discardControl)

/-! ### The frame rows -/

/-- A decoded frame word at the iterator: the record it is read as (R80, R81), its control kind (R90) and what it adds to an
error count (R85). It writes no state: the packet buffer and `ber_counter` change only at PROCESS or CONSTRUCT
(70_reset_and_hazards.md R135). -/
def frameStep (cls : FrameClass) (payload : Payload) (s : State) : Host.Outcome State Fault Refusal :=
  let r : FrameRecord := { cls := cls, payload := payload }
  .next (s.answer .ok (.frame r (controlKind r) (errorsOf cls)))

/-- A control frame of BTF `b`: `F[63:56] = b`, `F[55:0] = x` (30_encoding.md R42). -/
def controlStep (b : Byte) (x : BitVec 56) (s : State) : Host.Outcome State Fault Refusal :=
  frameStep .control (b ++ x) s

/-- DATA (30_encoding.md R39). -/
def execData (d : Payload) (s : State) : Host.Outcome State Fault Refusal := frameStep .data d s

/-- CTRL_IDLE (R42). -/
def execCtrlIdle (x : BitVec 56) (s : State) : Host.Outcome State Fault Refusal := controlStep (btfCode .idle) x s

/-- CTRL_NFC (R42): classified by its BTF and nothing more (00_scope.md R4). -/
def execCtrlNfc (x : BitVec 56) (s : State) : Host.Outcome State Fault Refusal := controlStep (btfCode .nfc) x s

/-- CTRL_UFC (R42): classified by its BTF and nothing more (00_scope.md R4). -/
def execCtrlUfc (x : BitVec 56) (s : State) : Host.Outcome State Fault Refusal := controlStep (btfCode .ufc) x s

/-- CTRL_SEP (R42). -/
def execCtrlSep (x : BitVec 56) (s : State) : Host.Outcome State Fault Refusal := controlStep (btfCode .sep) x s

/-- CTRL_SEP7 (R42). -/
def execCtrlSep7 (x : BitVec 56) (s : State) : Host.Outcome State Fault Refusal := controlStep (btfCode .sep7) x s

/-- CTRL_K0 (R42). -/
def execCtrlK0 (x : BitVec 56) (s : State) : Host.Outcome State Fault Refusal := controlStep (btfCode .k0) x s

/-- CTRL_K1 (R42). -/
def execCtrlK1 (x : BitVec 56) (s : State) : Host.Outcome State Fault Refusal := controlStep (btfCode .k1) x s

/-- CTRL_K2 (R42). -/
def execCtrlK2 (x : BitVec 56) (s : State) : Host.Outcome State Fault Refusal := controlStep (btfCode .k2) x s

/-- CTRL_K3 (R42). -/
def execCtrlK3 (x : BitVec 56) (s : State) : Host.Outcome State Fault Refusal := controlStep (btfCode .k3) x s

/-- CTRL_K4 (R42). -/
def execCtrlK4 (x : BitVec 56) (s : State) : Host.Outcome State Fault Refusal := controlStep (btfCode .k4) x s

/-- CTRL_K5 (R42). -/
def execCtrlK5 (x : BitVec 56) (s : State) : Host.Outcome State Fault Refusal := controlStep (btfCode .k5) x s

/-- CTRL_K6 (R42). -/
def execCtrlK6 (x : BitVec 56) (s : State) : Host.Outcome State Fault Refusal := controlStep (btfCode .k6) x s

/-- CTRL_K7 (R42). -/
def execCtrlK7 (x : BitVec 56) (s : State) : Host.Outcome State Fault Refusal := controlStep (btfCode .k7) x s

/-- CTRL_K8 (R42). -/
def execCtrlK8 (x : BitVec 56) (s : State) : Host.Outcome State Fault Refusal := controlStep (btfCode .k8) x s

/-- CTRL_RES (R42). -/
def execCtrlRes (x : BitVec 56) (s : State) : Host.Outcome State Fault Refusal := controlStep (btfCode .res) x s

/-- CTRL_OTHER (R43): still a control frame; no error, counted nowhere. -/
def execCtrlOther (b : Byte) (x : BitVec 56) (s : State) : Host.Outcome State Fault Refusal := controlStep b x s

/-- ERROR_00 (R80): counted, not fatal (60_exceptions.md R117). -/
def execError00 (x : Payload) (s : State) : Host.Outcome State Fault Refusal := frameStep .error x s

/-- ERROR_11 (R80): counted, not fatal (60_exceptions.md R117). -/
def execError11 (x : Payload) (s : State) : Host.Outcome State Fault Refusal := frameStep .error x s

end Sys2Proof.Machine
end

