-- ==== Sys2Proof/Machine/Search.lean ====
section
/-! DEFINITION. The alignment searcher (42_alignment.md) and the command SYNCHRONIZE (45_receiver_commands.md R105). -/

namespace Sys2Proof.Machine

/-- `HeaderValid(c, k)` (R69). -/
def headerValid (s : State) (c k : Nat) : Except FaultInfo Bool := do
  let sync ← syncRead s c k
  return syncValid sync

/-- Frames `k .. k + m - 1` all have a valid header at slip `c`; stops at the first invalid one (R71). -/
def prefixFrom (s : State) (c : Nat) : Nat → Nat → Except FaultInfo Bool
  | 0, _ => .ok true
  | m + 1, k => do
    let ok ← headerValid s c k
    if ok then prefixFrom s c m (k + 1) else return false

/-- `PrefixValid(c)` (R71). -/
def prefixValid (s : State) (c : Nat) : Except FaultInfo Bool := prefixFrom s c prefixFrames 0

/-- The walk over `m` frames from frame `k`, with `valid` headers so far: the acceptance test follows each header (R72, R73). -/
def walk (s : State) (c : Nat) : Nat → Nat → Nat → Except FaultInfo Bool
  | 0, _, _ => .ok false
  | m + 1, k, valid => do
    let ok ← headerValid s c k
    let valid' := if ok then valid + 1 else valid
    if s.threshold.toNat ≤ valid' then return true else walk s c m (k + 1) valid'

/-- One candidate of R70: the prefix, the acceptance test at `valid = 5`, then the walk over frames 5 to sample_size - 1. -/
def tryCandidate (s : State) (c : Nat) : Except FaultInfo Bool := do
  let ok ← prefixValid s c
  if ok then
    if s.threshold.toNat ≤ prefixFrames then return true
    else walk s c (s.sampleSize.toNat - prefixFrames) prefixFrames prefixFrames
  else return false

/-- The first accepted candidate among `m` of them from `c` on, in ascending order (R70, R76). -/
def searchFrom (s : State) : Nat → Nat → Except FaultInfo (Option Nat)
  | 0, _ => .ok none
  | m + 1, c => do
    let ok ← tryCandidate s c
    if ok then return some c else searchFrom s m (c + 1)

/-- `Synchronize()` (R70): the accepted candidate, or none. -/
def search (s : State) : Except FaultInfo (Option Nat) := searchFrom s slipCandidates 0

/-- SYNCHRONIZE once the gate is passed: acceptance writes `bitslip` and `synced` (R74), failure writes nothing (R75), a
read past the buffer enters FAULTED (R79). -/
def synchronizeBody (s : State) : Host.Outcome State Fault Refusal :=
  match search s with
  | .ok (some c) => .next ((s.acceptSlip c).answer .ok (.flag true))
  | .ok none => .next (s.answer .ok (.flag false))
  | .error fi => .next (s.raiseBounds fi)

/-- SYNCHRONIZE (45_receiver_commands.md R105). -/
def execSynchronize (s : State) : Host.Outcome State Fault Refusal := gated s synchronizeBody

end Sys2Proof.Machine
end

