-- ==== Sys2Proof/Machine/Dispatch.lean ====
section
/-! DEFINITION. One arm per row of spec/opcode_table.json. -/

namespace Sys2Proof.Machine

def exec (i : Instr) (s : State) : Host.Outcome State Fault Refusal :=
  match i with
  | .construct p c buf0 size pct ss => Sys2Proof.Machine.execConstruct p c buf0 size pct ss s
  | .setBuffer buf1 size => Sys2Proof.Machine.execSetBuffer buf1 size s
  | .forceBitslip slip => Sys2Proof.Machine.execForceBitslip slip s
  | .synchronize => Sys2Proof.Machine.execSynchronize s
  | .isSynchronized => Sys2Proof.Machine.execIsSynchronized s
  | .getBitslip => Sys2Proof.Machine.execGetBitslip s
  | .process d => Sys2Proof.Machine.execProcess d s
  | .getPacketBuffer => Sys2Proof.Machine.execGetPacketBuffer s
  | .getBer => Sys2Proof.Machine.execGetBer s
  | .decodeEvent d => Sys2Proof.Machine.execDecodeEvent d s
  | .decodeStatistics d1 d2 => Sys2Proof.Machine.execDecodeStatistics d1 d2 s
  | .decodeExtension d => Sys2Proof.Machine.execDecodeExtension d s
  | .reserved cmd => Sys2Proof.Machine.execReserved cmd s
  | .data d => Sys2Proof.Machine.execData d s
  | .ctrlIdle x => Sys2Proof.Machine.execCtrlIdle x s
  | .ctrlNfc x => Sys2Proof.Machine.execCtrlNfc x s
  | .ctrlUfc x => Sys2Proof.Machine.execCtrlUfc x s
  | .ctrlSep x => Sys2Proof.Machine.execCtrlSep x s
  | .ctrlSep7 x => Sys2Proof.Machine.execCtrlSep7 x s
  | .ctrlK0 x => Sys2Proof.Machine.execCtrlK0 x s
  | .ctrlK1 x => Sys2Proof.Machine.execCtrlK1 x s
  | .ctrlK2 x => Sys2Proof.Machine.execCtrlK2 x s
  | .ctrlK3 x => Sys2Proof.Machine.execCtrlK3 x s
  | .ctrlK4 x => Sys2Proof.Machine.execCtrlK4 x s
  | .ctrlK5 x => Sys2Proof.Machine.execCtrlK5 x s
  | .ctrlK6 x => Sys2Proof.Machine.execCtrlK6 x s
  | .ctrlK7 x => Sys2Proof.Machine.execCtrlK7 x s
  | .ctrlK8 x => Sys2Proof.Machine.execCtrlK8 x s
  | .ctrlRes x => Sys2Proof.Machine.execCtrlRes x s
  | .ctrlOther b x => Sys2Proof.Machine.execCtrlOther b x s
  | .error00 x => Sys2Proof.Machine.execError00 x s
  | .error11 x => Sys2Proof.Machine.execError11 x s
  | .eventPacket p => Sys2Proof.Machine.execEventPacket p s
  | .extensionPacket p => Sys2Proof.Machine.execExtensionPacket p s
  | .statisticsPacket p => Sys2Proof.Machine.execStatisticsPacket p s

end Sys2Proof.Machine
end

