-- ==== Sys2Proof/Machine/Step.lean ====
section
/-! DEFINITION. One step of the machine: the host's next move, and, where it is a request, the decoded instruction. -/

namespace Sys2Proof.Machine

/-- The host's move `m` on a state whose inbox no longer holds it. -/
def perform (m : HostMove) (s : State) : Host.Outcome State Fault Refusal :=
  match m with
  | .store h i w => hostStore h i w s
  | .powerOn => hostPowerOn s
  | .present r =>
    match decode r with
    | .ok i => exec i s
    | .error why => .refused (.undecodable why)

/-- One step. With no move of the host's left the block waits (log 10). -/
def step (s : State) : Host.Outcome State Fault Refusal :=
  match s.inbox with
  | [] => .next s
  | m :: rest => perform m { s with inbox := rest }

/-- `s` with the instruction of an opcode-table row's bits as the host's next move, its other operand inputs 0 (log 10,
log 20). Bits that no input takes leave `s` as it is. -/
def State.withFetchWord (s : State) (nbits w : Nat) : State :=
  match requestOfTable nbits w with
  | some r => { s with inbox := .present r :: s.inbox }
  | none => s

end Sys2Proof.Machine
end

