-- ==== Sys2Proof/WellFormed.lean ====
section
/-! DEFINITION. Which terms of `Instr` are instructions: a RESERVED term holds a reserved command word (30_encoding.md
R53), a CTRL_OTHER term a BTF outside the table (R43). Every other constructor's fields have exactly their widths. -/

namespace Sys2Proof

/-- The check of an instruction as syntax. -/
def Instr.wf : Instr → Bool
  | .construct _ _ _ _ _ _ => true
  | .setBuffer _ _ => true
  | .forceBitslip _ => true
  | .synchronize => true
  | .isSynchronized => true
  | .getBitslip => true
  | .process _ => true
  | .getPacketBuffer => true
  | .getBer => true
  | .decodeEvent _ => true
  | .decodeStatistics _ _ => true
  | .decodeExtension _ => true
  | .reserved cmd => isReserved cmd
  | .data _ => true
  | .ctrlIdle _ => true
  | .ctrlNfc _ => true
  | .ctrlUfc _ => true
  | .ctrlSep _ => true
  | .ctrlSep7 _ => true
  | .ctrlK0 _ => true
  | .ctrlK1 _ => true
  | .ctrlK2 _ => true
  | .ctrlK3 _ => true
  | .ctrlK4 _ => true
  | .ctrlK5 _ => true
  | .ctrlK6 _ => true
  | .ctrlK7 _ => true
  | .ctrlK8 _ => true
  | .ctrlRes _ => true
  | .ctrlOther b _ => btfName b == .other
  | .error00 _ => true
  | .error11 _ => true
  | .eventPacket _ => true
  | .extensionPacket _ => true
  | .statisticsPacket _ => true

end Sys2Proof
end

