-- ==== Sys2Proof/Safety.lean ====
section
/-! DEFINITION. The terms claims are stated in: when a command runs, the machine's invariant, which states no host can tell
apart, which instructions write what, and the alignment search and PROCESS said over the stream instead of over word
reads. -/

namespace Sys2Proof.Machine

/-! ### When a command runs -/

/-- The block is configured and not FAULTED: no gate refuses (45_receiver_commands.md R101). -/
def Ready (s : State) : Prop := s.configured = true ∧ s.fault = false

/-- The commands that are refused while FAULTED or unconfigured: all but CONSTRUCT and the three decoders
(60_exceptions.md R122). -/
def gatedCommand : Instr → Bool
  | .setBuffer _ _ => true
  | .forceBitslip _ => true
  | .synchronize => true
  | .isSynchronized => true
  | .getBitslip => true
  | .process _ => true
  | .getPacketBuffer => true
  | .getBer => true
  | _ => false

/-- `i` is refused with REFUSED_FAULTED whenever `fault` is set, else with REFUSED_UNCONFIGURED whenever `configured` is
false; a refusal writes nothing but the reply (60_exceptions.md R122, R124). -/
def RefusedUntilReady (i : Instr) : Prop :=
  ∀ s : State,
    (s.fault = true → exec i s = .next { s with reply := some ⟨.refusedFaulted, .noResult⟩ }) ∧
    (s.fault = false → s.configured = false →
      exec i s = .next { s with reply := some ⟨.refusedUnconfigured, .noResult⟩ })

/-- The reserved command words: opcodes 0, D, E and F, `cmd[3:2]` of CONSTRUCT, `cmd[3:1]` of PROCESS and `cmd[3:0]` of every
other command (30_encoding.md R53). -/
def ReservedWord (cmd : Byte) : Prop :=
  (cmd.toNat / 16 = 0x0 ∨ cmd.toNat / 16 = 0xD ∨ cmd.toNat / 16 = 0xE ∨ cmd.toNat / 16 = 0xF) ∨
  (cmd.toNat / 16 = 0x1 ∧ cmd.toNat / 4 % 4 ≠ 0) ∨
  (cmd.toNat / 16 = 0x7 ∧ cmd.toNat / 2 % 8 ≠ 0) ∨
  (cmd.toNat / 16 ≠ 0x1 ∧ cmd.toNat / 16 ≠ 0x7 ∧ cmd.toNat % 16 ≠ 0)

/-- An operand out of range: size > MAX_WORDS, s ≥ 64 (60_exceptions.md R122). -/
def OperandOutOfRange (s : State) : Instr → Prop
  | .construct _ _ _ size _ _ => s.hw.maxWords < size.toNat
  | .setBuffer _ size => s.hw.maxWords < size.toNat
  | .forceBitslip slip => 64 ≤ slip.toNat
  | _ => False

/-! ### Which instruction is which -/

/-- CONSTRUCT, the only reset and the only exit from FAULTED (60_exceptions.md R126). -/
def isConstruct : Instr → Bool
  | .construct _ _ _ _ _ _ => true
  | _ => false

/-- SET_BUFFER. -/
def isSetBuffer : Instr → Bool
  | .setBuffer _ _ => true
  | _ => false

/-- FORCE_BITSLIP. -/
def isForceBitslip : Instr → Bool
  | .forceBitslip _ => true
  | _ => false

/-- PROCESS. -/
def isProcess : Instr → Bool
  | .process _ => true
  | _ => false

/-- RESERVED. -/
def isReservedRow : Instr → Bool
  | .reserved _ => true
  | _ => false

/-! ### The invariant -/

/-- What holds in every state a run reaches. -/
structure Inv (s : State) : Prop where
  /-- The canonical form of memory (log 3, log 4). -/
  memWf : Memory.wf s.mem = true
  /-- "`fault` can be set only once `configured` is true" (60_exceptions.md R124). -/
  faultConfigured : s.fault = true → s.configured = true
  /-- `N ≤ MAX_WORDS` (10_state.md R10). -/
  sizeBound : s.configured = true → s.n.toNat ≤ s.hw.maxWords
  /-- "`threshold ≤ sample_size` always" (10_state.md R14). -/
  thresholdBound : s.configured = true → s.threshold.toNat ≤ s.sampleSize.toNat
  /-- The observable `ber_counter` lies in [0, 99] (10_state.md R15). -/
  berBound : Ready s → s.berCounter ≤ 99
  /-- PKT_CAP: at most ⌊32·MAX_WORDS/66⌋ records (10_state.md R16, 00_scope.md R5). -/
  packetBound : Ready s → s.packets.length ≤ 32 * s.hw.maxWords / 66

/-! ### States no host can tell apart -/

/-- Two states that differ at most in the elements the spec calls unspecified: everything that only CONSTRUCT can make
observable while unconfigured, `packets` and `ber_counter` while FAULTED, `fault_info` while not FAULTED (10_state.md R22,
60_exceptions.md R120), and the count of free values. -/
structure Indistinguishable (s t : State) : Prop where
  hw : s.hw = t.hw
  configured : s.configured = t.configured
  fault : s.fault = t.fault
  mem : s.mem = t.mem
  inbox : s.inbox = t.inbox
  reply : s.reply = t.reply
  registers : s.configured = true →
    s.buf = t.buf ∧ s.n = t.n ∧ s.bitslip = t.bitslip ∧ s.synced = t.synced ∧ s.sampleSize = t.sampleSize ∧
      s.threshold = t.threshold
  outputs : Ready s → s.berCounter = t.berCounter ∧ s.packets = t.packets
  info : s.fault = true → s.faultInfo = t.faultInfo

/-- Two outcomes that differ at most as their states do. -/
def SameOutcome : Host.Outcome State Fault Refusal → Host.Outcome State Fault Refusal → Prop
  | .next s, .next t => Indistinguishable s t
  | .fault r, .fault r' => r = r'
  | .refused r, .refused r' => r = r'
  | _, _ => False

/-! ### The search over the stream (42_alignment.md) -/

/-- Frame `k`'s header at slip `c` is 01 or 10, by the stream definition (R69, 30_encoding.md R39). -/
def headerAt (s : State) (c k : Nat) : Bool := streamSync s c k == 0b01 || streamSync s c k == 0b10

/-- Candidate `c` is accepted: frames 0 to 4 all have a valid header, and 5 plus the valid headers among frames 5 to
sample_size - 1 reach the threshold (R71 to R73). -/
def accepts (s : State) (c : Nat) : Bool :=
  (List.range 5).all (headerAt s c) &&
    decide (s.threshold.toNat ≤ 5 + (List.range' 5 (s.sampleSize.toNat - 5)).countP (headerAt s c))

/-- The lowest accepted candidate of 0 to 63 (R76). -/
def firstAccepted (s : State) : Option Nat := (List.range 64).find? (accepts s)

/-- Every header any candidate could read lies inside the buffer (R79). -/
def SearchFits (s : State) : Prop := 63 + 66 * (max 5 s.sampleSize.toNat - 1) + 2 ≤ 32 * s.n.toNat

/-! ### PROCESS over the stream (43_frame_iterator.md) -/

/-- max_frames does not underflow (R83). -/
def FramesFit (s : State) : Prop := s.bitslip = 0 ∨ 32 * s.n.toNat / 66 ≠ 0

/-- max_frames, where it does not underflow (R83). -/
def frameCount (s : State) : Nat := if s.bitslip = 0 then 32 * s.n.toNat / 66 else 32 * s.n.toNat / 66 - 1

/-- Frame `k`'s record (R81): its class by the stream's header, its payload descrambled with frame k-1's raw payload when
k > 0. -/
def recordAt (s : State) (k : Nat) : FrameRecord where
  cls := classify (streamSync s s.bitslip.toNat k)
  payload :=
    if k = 0 then streamRaw s s.bitslip.toNat 0
    else descramble (streamRaw s s.bitslip.toNat (k - 1)) (streamRaw s s.bitslip.toNat k)

/-- Frame `k`'s record is pushed (R87, R82). -/
def keptAt (s : State) (discardControl : Bool) (k : Nat) : Bool :=
  !(k == 0 && s.hw.frame0Policy == .discard) && !(discardControl && (recordAt s k).cls == .control)

/-- The packet buffer PROCESS leaves (R85 to R87). -/
def processedPackets (s : State) (discardControl : Bool) : List FrameRecord :=
  ((List.range (frameCount s)).filter (keptAt s discardControl)).map (recordAt s)

/-- How many of the frames read have an invalid header (R88). -/
def errorFrames (s : State) : Nat := (List.range (frameCount s)).countP fun k => (recordAt s k).cls == .error

/-- The `ber_counter` PROCESS leaves (R88). -/
def processedBer (s : State) : Nat := errorFrames s * 100 / (frameCount s + 1)

/-- What PROCESS makes of frame `k`'s row (R85, R87): the errors the row answers are counted, and the record it answers is
pushed unless it is frame 0 under DISCARD (R82) or a control frame under discard_control. -/
def takeFrame (discardControl : Bool) (k : Nat) (f : FrameWord) (s : State) : State :=
  match exec (decodeFrame f) s with
  | .next { reply := some ⟨.ok, .frame r _ errors⟩, .. } =>
    { s with
      berCounter := s.berCounter + errors
      packets :=
        if (k = 0 ∧ s.hw.frame0Policy = .discard) ∨ (discardControl = true ∧ r.cls = .control) then s.packets
        else s.packets ++ [r] }
  | _ => s

/-- The rows of frames `k`, `k + 1`, ... one after another. -/
def takeFrames (discardControl : Bool) : Nat → List FrameWord → State → State
  | _, [], s => s
  | k, f :: rest, s => takeFrames discardControl (k + 1) rest (takeFrame discardControl k f s)

/-! ### The attached buffer -/

/-- Two states that differ at most in words outside the attached buffer (20_memory.md R23). -/
structure SameBuffer (s t : State) : Prop where
  others : t = { s with mem := t.mem }
  words : ∀ i, i < s.n.toNat → readWord t.mem s.buf i = readWord s.mem s.buf i

end Sys2Proof.Machine
end

