-- ==== Sys2Proof/Certificates/Slice0/Obligations.lean ====
section
/-! DEFINITION. The statements for the provers, from the spec's numbered rules. -/

open Sys2Proof Sys2Proof.Machine

/-! ### Decoding and encoding -/

/-- Decode and encode agree: every well-formed instruction is what its encoding decodes to, and the decoder answers
well-formed instructions only. -/
def Obligations.DecodeEncodeAgree : Prop :=
  (∀ i : Instr, i.wf = true → decode (encode i) = .ok i) ∧
  (∀ (r : Request) (i : Instr), decode r = .ok i → i.wf = true)

/-- The reserved command words are exactly the opcodes 0, D, E, F and the words with a modifier bit that R52 does not name;
they decode to RESERVED whatever the operand inputs hold. -/
def Obligations.ReservedWordsDecode : Prop :=
  ∀ (cmd : Byte) (a b : BitVec 64) (c : Byte) (d : Word),
    decode (.command cmd a b c d) = .ok (.reserved cmd) ↔ ReservedWord cmd

/-- The opcode map of R52 on its sixteen words. Each operand is read from the input the map gives it; an input that a command
does not name may hold any value, and only an operand narrower than its input is bounded (log 1). -/
def Obligations.KnownWordsDecode : Prop :=
  ∀ (a b : BitVec 64) (c : Byte) (d : Word),
    (b.toNat < 2 ^ 32 →
      decode (.command 0b00010000 a b c d) = .ok (.construct false false a (b.setWidth 32) c d) ∧
      decode (.command 0b00010001 a b c d) = .ok (.construct false true a (b.setWidth 32) c d) ∧
      decode (.command 0b00010010 a b c d) = .ok (.construct true false a (b.setWidth 32) c d) ∧
      decode (.command 0b00010011 a b c d) = .ok (.construct true true a (b.setWidth 32) c d) ∧
      decode (.command 0b00100000 a b c d) = .ok (.setBuffer a (b.setWidth 32))) ∧
    (a.toNat < 2 ^ 8 → decode (.command 0b00110000 a b c d) = .ok (.forceBitslip (a.setWidth 8))) ∧
    decode (.command 0b01000000 a b c d) = .ok .synchronize ∧
    decode (.command 0b01010000 a b c d) = .ok .isSynchronized ∧
    decode (.command 0b01100000 a b c d) = .ok .getBitslip ∧
    decode (.command 0b01110000 a b c d) = .ok (.process false) ∧
    decode (.command 0b01110001 a b c d) = .ok (.process true) ∧
    decode (.command 0b10000000 a b c d) = .ok .getPacketBuffer ∧
    decode (.command 0b10010000 a b c d) = .ok .getBer ∧
    decode (.command 0b10100000 a b c d) = .ok (.decodeEvent a) ∧
    decode (.command 0b10110000 a b c d) = .ok (.decodeStatistics a b) ∧
    decode (.command 0b11000000 a b c d) = .ok (.decodeExtension a)

/-- The sync header classifies a frame word and the BTF names a control frame (R39, R42, R43). -/
def Obligations.FrameWordsDecode : Prop :=
  ∀ (d : Payload) (b : Byte) (x : BitVec 56),
    decodeFrame ((0b01 : BitVec 2) ++ d) = .data d ∧
    decodeFrame ((0b00 : BitVec 2) ++ d) = .error00 d ∧
    decodeFrame ((0b11 : BitVec 2) ++ d) = .error11 d ∧
    decodeFrame ((0b10 : BitVec 2) ++ (0x78#8 ++ x)) = .ctrlIdle x ∧
    decodeFrame ((0b10 : BitVec 2) ++ (0xAA#8 ++ x)) = .ctrlNfc x ∧
    decodeFrame ((0b10 : BitVec 2) ++ (0x2D#8 ++ x)) = .ctrlUfc x ∧
    decodeFrame ((0b10 : BitVec 2) ++ (0x1E#8 ++ x)) = .ctrlSep x ∧
    decodeFrame ((0b10 : BitVec 2) ++ (0xE1#8 ++ x)) = .ctrlSep7 x ∧
    decodeFrame ((0b10 : BitVec 2) ++ (0xD2#8 ++ x)) = .ctrlK0 x ∧
    decodeFrame ((0b10 : BitVec 2) ++ (0x99#8 ++ x)) = .ctrlK1 x ∧
    decodeFrame ((0b10 : BitVec 2) ++ (0x55#8 ++ x)) = .ctrlK2 x ∧
    decodeFrame ((0b10 : BitVec 2) ++ (0xB4#8 ++ x)) = .ctrlK3 x ∧
    decodeFrame ((0b10 : BitVec 2) ++ (0xCC#8 ++ x)) = .ctrlK4 x ∧
    decodeFrame ((0b10 : BitVec 2) ++ (0x66#8 ++ x)) = .ctrlK5 x ∧
    decodeFrame ((0b10 : BitVec 2) ++ (0x33#8 ++ x)) = .ctrlK6 x ∧
    decodeFrame ((0b10 : BitVec 2) ++ (0x4B#8 ++ x)) = .ctrlK7 x ∧
    decodeFrame ((0b10 : BitVec 2) ++ (0x87#8 ++ x)) = .ctrlK8 x ∧
    decodeFrame ((0b10 : BitVec 2) ++ (0xFF#8 ++ x)) = .ctrlRes x ∧
    (b ∉ [0x78#8, 0xAA#8, 0x2D#8, 0x1E#8, 0xE1#8, 0xD2#8, 0x99#8, 0x55#8, 0xB4#8, 0xCC#8, 0x66#8, 0x33#8, 0x4B#8, 0x87#8,
        0xFF#8] →
      decodeFrame ((0b10 : BitVec 2) ++ (b ++ x)) = .ctrlOther b x)

/-! ### The step -/

/-- A step performs the host's next move; where the move presents bits that decode to an instruction, it is exec of that
instruction. -/
def Obligations.StepRunsDecodedInstruction : Prop :=
  ∀ (s : State) (r : Request) (rest : List HostMove) (i : Instr),
    s.inbox = .present r :: rest → decode r = .ok i → step s = exec i { s with inbox := rest }

/-- R101: the block performs each command to completion: every instruction answers a next state, never a stop. -/
def Obligations.EveryInstructionCompletes : Prop :=
  ∀ (i : Instr) (s : State), ∃ t, exec i s = .next t ∧ t.reply ≠ none

/-- A step can stop only on bits that do not decode or on a host write to a word no buffer has (log 1, log 14). -/
def Obligations.StepStopsOnlyOnTheHost : Prop :=
  ∀ s : State,
    (∀ f : Fault, step s = .fault f → ∃ h i w rest, s.inbox = .store h i w :: rest ∧ 2 ^ 32 ≤ i) ∧
    (∀ e : Refusal, step s = .refused e →
      ∃ r rest why, s.inbox = .present r :: rest ∧ decode r = .error why ∧ e = .undecodable why)

/-! ### Power-on, gates and refusals -/

/-- The invariant holds at reset. -/
def Obligations.ResetMeetsInvariant : Prop := Inv State.reset

/-- Every step keeps the invariant. -/
def Obligations.StepKeepsInvariant : Prop :=
  ∀ s t : State, Inv s → step s = .next t → Inv t

/-- At power-on `configured` and `fault` are false, and the host's buffer and parameters are as before. -/
def Obligations.PowerOnClears : Prop :=
  State.reset.configured = false ∧ State.reset.fault = false ∧
  ∀ (s : State) (rest : List HostMove), s.inbox = .powerOn :: rest →
    ∃ t, step s = .next t ∧ t.configured = false ∧ t.fault = false ∧ t.mem = s.mem ∧ t.hw = s.hw ∧ t.inbox = rest

/-- R17: `configured` is false at power-on, CONSTRUCT sets it, no command clears it, and while it is false every command
other than CONSTRUCT and the decoders is refused. -/
def Obligations.ConfiguredLifecycle : Prop :=
  State.reset.configured = false ∧
  (∀ (p c : Bool) (h : Handle) (z : Word) (pct : Byte) (ss : Word) (s : State), z.toNat ≤ s.hw.maxWords →
    ∃ t, exec (.construct p c h z pct ss) s = .next t ∧ t.configured = true) ∧
  (∀ (i : Instr) (s t : State), exec i s = .next t → s.configured = true → t.configured = true) ∧
  (∀ (i : Instr) (s : State), gatedCommand i = true → s.configured = false →
    ∃ t, exec i s = .next t ∧
      (t = { s with reply := some ⟨.refusedUnconfigured, .noResult⟩ } ∨
        (s.fault = true ∧ t = { s with reply := some ⟨.refusedFaulted, .noResult⟩ })))

/-- R122's table, row by row: a reserved word is RESERVED, which is refused in every state; FAULTED, then `configured`, refuse
every command but CONSTRUCT and the decoders; an operand out of range is refused once no gate refuses. A refusal returns no
result and writes nothing. -/
def Obligations.RefusalTable : Prop :=
  (∀ (cmd : Byte) (a b : BitVec 64) (c : Byte) (d : Word) (s : State), ReservedWord cmd →
    decode (.command cmd a b c d) = .ok (.reserved cmd) ∧
    exec (.reserved cmd) s = .next { s with reply := some ⟨.refusedReserved, .noResult⟩ }) ∧
  (∀ i : Instr, gatedCommand i = true → RefusedUntilReady i) ∧
  (∀ (i : Instr) (s : State), OperandOutOfRange s i → (gatedCommand i = true → Ready s) →
    exec i s = .next { s with reply := some ⟨.refusedOperand, .noResult⟩ })

/-- RESERVED is refused in every state with status REFUSED_RESERVED and no state change (R53, R122). -/
def Obligations.ReservedRefused : Prop :=
  ∀ (cmd : Byte) (s : State),
    exec (.reserved cmd) s = .next { s with reply := some ⟨.refusedReserved, .noResult⟩ }

/-- R123: the six codes, and for every instruction exactly when it answers each of them and with which result. OK is every
other case, AlignmentFailure among them. That the frame and packet rows answer with a status is the model's choice (log 7,
log 8). -/
def Obligations.StatusCodes : Prop :=
  statusCode .ok = 0 ∧ statusCode .refusedReserved = 1 ∧ statusCode .refusedUnconfigured = 2 ∧
  statusCode .refusedFaulted = 3 ∧ statusCode .refusedOperand = 4 ∧ statusCode .boundsViolation = 5 ∧
  (∀ status : Status, statusCode status < 6) ∧
  (∀ (i : Instr) (s : State), ∃ t rep, exec i s = .next t ∧ t.reply = some rep ∧
    (rep.status = .refusedReserved ↔ isReservedRow i = true) ∧
    (rep.status = .refusedFaulted ↔ gatedCommand i = true ∧ s.fault = true) ∧
    (rep.status = .refusedUnconfigured ↔ gatedCommand i = true ∧ s.fault = false ∧ s.configured = false) ∧
    (rep.status = .refusedOperand ↔ OperandOutOfRange s i ∧ (gatedCommand i = true → Ready s)) ∧
    (rep.status = .boundsViolation ↔ s.fault = false ∧ t.fault = true) ∧
    (rep.status = .ok ↔ isReservedRow i = false ∧ (gatedCommand i = true → Ready s) ∧ ¬ OperandOutOfRange s i ∧
      ¬ (s.fault = false ∧ t.fault = true)) ∧
    (rep.status ≠ .ok → rep.status ≠ .boundsViolation → rep.result = .noResult ∧ t = { s with reply := some rep }) ∧
    (rep.status = .boundsViolation → rep.result = .faultInfo t.faultInfo)) ∧
  ∀ s : State, Ready s → search s = .ok none →
    ∃ t, exec .synchronize s = .next t ∧ t.reply = some ⟨.ok, .flag false⟩

/-- R126: while `fault` is set every command but CONSTRUCT and the decoders is refused, no second BoundsViolation occurs and
`fault_info` keeps its value until CONSTRUCT, which clears `fault`; a step clears `fault` only by CONSTRUCT or power-on. -/
def Obligations.FaultedLeftOnlyByReset : Prop :=
  (∀ (i : Instr) (s t : State), exec i s = .next t → s.fault = true →
    (gatedCommand i = true → t = { s with reply := some ⟨.refusedFaulted, .noResult⟩ }) ∧
    (isConstruct i = false → t.fault = true ∧ t.faultInfo = s.faultInfo) ∧
    ∀ res : Result, t.reply ≠ some ⟨.boundsViolation, res⟩) ∧
  (∀ (p c : Bool) (h : Handle) (z : Word) (pct : Byte) (ss : Word) (s : State), z.toNat ≤ s.hw.maxWords →
    ∃ t, exec (.construct p c h z pct ss) s = .next t ∧ t.fault = false) ∧
  (∀ s t : State, step s = .next t → s.fault = true → t.fault = false →
    (∃ rest, s.inbox = .powerOn :: rest) ∨
    ∃ r rest i, s.inbox = .present r :: rest ∧ decode r = .ok i ∧ isConstruct i = true)

/-- R119: BoundsViolation is raised by a MemRead of word `j ≥ N`, which only SYNCHRONIZE can cause, and by the underflow of
MaxFrames, which only PROCESS can cause. -/
def Obligations.FaultCauses : Prop :=
  (∀ (s : State) (j : Nat), memRead s j = .error (.word j) ↔ s.n.toNat ≤ j) ∧
  (∀ s : State, maxFrames s = .error .underflow ↔ s.bitslip ≠ 0 ∧ 32 * s.n.toNat / 66 = 0) ∧
  ∀ (i : Instr) (s t : State), exec i s = .next t → s.fault = false → t.fault = true →
    (i = .synchronize ∧ ∃ j, t.faultInfo = .word j ∧ s.n.toNat ≤ j) ∨
    (isProcess i = true ∧ t.faultInfo = .underflow ∧ s.bitslip ≠ 0 ∧ 32 * s.n.toNat / 66 = 0)

/-! ### Configuration commands -/

/-- CONSTRUCT on an accepted size (R102): every element it writes, and what it leaves. -/
def Obligations.ConstructCompletes : Prop :=
  ∀ (p c : Bool) (h : Handle) (z : Word) (pct : Byte) (ss : Word) (s : State), z.toNat ≤ s.hw.maxWords →
    ∃ t, exec (.construct p c h z pct ss) s = .next t ∧
      t.buf = h ∧ t.n = z ∧
      t.sampleSize.toNat = min z.toNat (if p then 64 else ss.toNat) ∧
      t.threshold.toNat = t.sampleSize.toNat * min (if c then 90 else pct.toNat) 100 / 100 ∧
      t.bitslip = 0 ∧ t.synced = false ∧ t.berCounter = 0 ∧ t.packets = [] ∧
      t.configured = true ∧ t.fault = false ∧
      t.reply = some ⟨.ok, .noResult⟩ ∧
      t.hw = s.hw ∧ t.mem = s.mem ∧ t.inbox = s.inbox

/-- R131: the state after CONSTRUCT depends only on its operands, `fault_info` apart. -/
def Obligations.ConstructForgets : Prop :=
  ∀ (p c : Bool) (h : Handle) (z : Word) (pct : Byte) (ss : Word) (s s' t t' : State), s.hw = s'.hw →
    z.toNat ≤ s.hw.maxWords →
    exec (.construct p c h z pct ss) s = .next t → exec (.construct p c h z pct ss) s' = .next t' →
    t' = { t with faultInfo := t'.faultInfo, mem := s'.mem, inbox := s'.inbox, freeCount := t'.freeCount }

/-- R114: `pct` above 100 acts as 100, all other operands equal, and 100 gives threshold = sample_size. -/
def Obligations.PctClamped : Prop :=
  (∀ (p c : Bool) (h : Handle) (z : Word) (pct : Byte) (ss : Word) (s : State), 100 < pct.toNat →
    exec (.construct p c h z pct ss) s = exec (.construct p c h z 100 ss) s) ∧
  (∀ (p : Bool) (h : Handle) (z : Word) (ss : Word) (s : State), z.toNat ≤ s.hw.maxWords →
    ∃ t, exec (.construct p false h z 100 ss) s = .next t ∧ t.threshold = t.sampleSize)

/-- R115: N ≤ the requested sample size (64 by default) gives sample_size = N; a larger N gives the requested size. -/
def Obligations.SampleClamped : Prop :=
  ∀ (p c : Bool) (h : Handle) (z : Word) (pct : Byte) (ss : Word) (s : State), z.toNat ≤ s.hw.maxWords →
    ∃ t, exec (.construct p c h z pct ss) s = .next t ∧
      (z.toNat ≤ (if p then 64 else ss.toNat) → t.sampleSize = z) ∧
      ((if p then 64 else ss.toNat) < z.toNat → t.sampleSize = if p then 64 else ss)

/-- SET_BUFFER (R103): `buf` and `N` only. -/
def Obligations.SetBufferCompletes : Prop :=
  ∀ (h : Handle) (z : Word) (s : State), Ready s → z.toNat ≤ s.hw.maxWords →
    exec (.setBuffer h z) s = .next { s with buf := h, n := z, reply := some ⟨.ok, .noResult⟩ }

/-- FORCE_BITSLIP (R104): `bitslip` only. -/
def Obligations.ForceBitslipCompletes : Prop :=
  ∀ (v : Byte) (s : State), Ready s → v.toNat < 64 →
    ∃ b : BitVec 6, b.toNat = v.toNat ∧
      exec (.forceBitslip v) s = .next { s with bitslip := b, reply := some ⟨.ok, .noResult⟩ }

/-- The readouts (R106, R107, R109, R110): the register as the result, and nothing written. -/
def Obligations.ReadoutsComplete : Prop :=
  ∀ s : State, Ready s →
    exec .isSynchronized s = .next { s with reply := some ⟨.ok, .flag s.synced⟩ } ∧
    (∃ v : Byte, v.toNat = s.bitslip.toNat ∧ exec .getBitslip s = .next { s with reply := some ⟨.ok, .byte v⟩ }) ∧
    exec .getPacketBuffer s =
      .next { s with
        reply := some ⟨.ok, .records s.packets.length (s.packets.map fun r =>
          ((match r.cls with | .data => 0b01 | .control => 0b10 | .error => 0b00), r.payload))⟩ } ∧
    exec .getBer s = .next { s with reply := some ⟨.ok, .number s.berCounter⟩ }

/-! ### Who writes what -/

/-- Each element of the state changes only by the instructions the spec names for it; the buffer, the parameters and the
host's script by none (10_state.md R10 to R18, 20_memory.md R25). -/
def Obligations.RegisterWriters : Prop :=
  ∀ (i : Instr) (s t : State), exec i s = .next t →
    t.mem = s.mem ∧ t.hw = s.hw ∧ t.inbox = s.inbox ∧
    (isConstruct i = false → t.configured = s.configured ∧ t.sampleSize = s.sampleSize ∧ t.threshold = s.threshold) ∧
    (isConstruct i = false → isSetBuffer i = false → t.buf = s.buf ∧ t.n = s.n) ∧
    (isConstruct i = false → isForceBitslip i = false → i ≠ .synchronize → t.bitslip = s.bitslip) ∧
    (isConstruct i = false → i ≠ .synchronize → t.synced = s.synced) ∧
    (isConstruct i = false → i ≠ .synchronize → isProcess i = false →
      t.fault = s.fault ∧ t.faultInfo = s.faultInfo) ∧
    (isConstruct i = false → isProcess i = false →
      t.freeCount = s.freeCount ∧ t.berCounter = s.berCounter ∧ t.packets = s.packets)

/-- No instruction changes a byte of memory (R25). -/
def Obligations.BufferNeverWritten : Prop :=
  ∀ (i : Instr) (s t : State), exec i s = .next t → ∀ a : Nat, readByte t.mem a = readByte s.mem a

/-- R12: once `synced` is true it stays true until the next CONSTRUCT. -/
def Obligations.SyncedStays : Prop :=
  ∀ (i : Instr) (s t : State), exec i s = .next t → s.synced = true → isConstruct i = false → t.synced = true

/-! ### Memory -/

/-- R24, R6: MemRead returns word i of the attached buffer, whose bits from the most significant down are the stream bits
32·i to 32·i + 31; past the buffer's end it raises BoundsViolation(i). -/
def Obligations.MemReadBounds : Prop :=
  ∀ (s : State) (i : Nat),
    (i < s.n.toNat → memRead s i = .ok (readWord s.mem s.buf i) ∧
      ∀ j, j < 32 → (readWord s.mem s.buf i).getLsbD (31 - j) = streamBit s (32 * i + j)) ∧
    (s.n.toNat ≤ i → memRead s i = .error (.word i))

/-- A host write between commands is what every later MemRead of that word returns; every other word keeps its value. -/
def Obligations.HostWriteSeen : Prop :=
  ∀ (s : State) (h : Handle) (i : Nat) (w : Word) (rest : List HostMove),
    s.inbox = .store h i w :: rest → Memory.wf s.mem = true → i < 2 ^ 32 →
    ∃ t, step s = .next t ∧ t = { s with mem := t.mem, inbox := rest } ∧
      readWord t.mem h i = w ∧
      ∀ (h' : Handle) (i' : Nat), i' < 2 ^ 32 → ¬ (h' = h ∧ i' = i) → readWord t.mem h' i' = readWord s.mem h' i'

/-! ### The bit extractor -/

/-- R57: `sync_index(k)·32 + sync_shift(k) = bitslip + 66·k`, with the shift below 32. -/
def Obligations.PositionSplits : Prop :=
  ∀ slip k : Nat, syncIndex slip k * 32 + syncShift slip k = slip + 66 * k ∧ syncShift slip k < 32

/-- Where the two header bits lie inside the buffer SyncRead gives the stream's header bits, zero-extended to 8 bits (R58, R39). -/
def Obligations.SyncReadAgrees : Prop :=
  ∀ (s : State) (slip k : Nat), slip + 66 * k + 2 ≤ 32 * s.n.toNat →
    syncRead s slip k = .ok ((streamSync s slip k).setWidth 8)

/-- R60: where frame k lies wholly inside the buffer, SyncRead and PayloadRead give the stream's header and the stream's 64
payload bits, in all three geometries. -/
def Obligations.WordReadsAgree : Prop :=
  ∀ (s : State) (slip k : Nat), slip + 66 * k + 66 ≤ 32 * s.n.toNat →
    syncRead s slip k = .ok ((streamSync s slip k).setWidth 8) ∧
    ∃ v : Payload, payloadRead s slip k = .ok v ∧ v = streamRaw s slip k ∧
      ∀ j, j < 64 → v.getLsbD (63 - j) = streamBit s (slip + 66 * k + 2 + j)

/-- R61: SyncRead raises BoundsViolation iff `p + 2 > 32·N`, PayloadRead iff `p + 66 > 32·N`; the information is the first
word in read order at or past N. -/
def Obligations.ReadBounds : Prop :=
  ∀ (s : State) (slip k : Nat),
    ((∃ fi, syncRead s slip k = .error fi) ↔ 32 * s.n.toNat < slip + 66 * k + 2) ∧
    ((∃ fi, payloadRead s slip k = .error fi) ↔ 32 * s.n.toNat < slip + 66 * k + 66) ∧
    (∀ fi, syncRead s slip k = .error fi → fi = .word (max s.n.toNat (syncIndex slip k))) ∧
    (∀ fi, payloadRead s slip k = .error fi →
      fi = .word (max s.n.toNat (syncIndex slip k + if syncShift slip k = 31 then 1 else 0)))

/-! ### The descrambler -/

/-- R64: the closed form, bit by bit over `S = P0 ∥ R` and as word operations. -/
def Obligations.DescrambleClosedForm : Prop :=
  ∀ p r : Payload,
    (∀ i, i < 64 → (descramble p r).getLsbD i =
      (((p ++ r).getLsbD i ^^ (p ++ r).getLsbD (i + 39)) ^^ (p ++ r).getLsbD (i + 58))) ∧
    descramble p r = r ^^^ (r >>> 39) ^^^ (p <<< 25) ^^^ (r >>> 58) ^^^ (p <<< 6)

/-- R65: after the 64 steps the register holds the raw payload. -/
def Obligations.DescramblerKeepsRaw : Prop := ∀ p r : Payload, descrambleLast p r = r

/-- R68: descrambling inverts the matching scrambler seeded by the same predecessor, and scrambling inverts descrambling. -/
def Obligations.DescrambleInvertsScramble : Prop :=
  ∀ p x : Payload, descramble p (scramble p x) = x ∧ scramble p (descramble p x) = x

/-! ### SYNCHRONIZE -/

/-- Where every header a candidate could read lies in the buffer, SYNCHRONIZE completes: the lowest candidate whose frames
0 to 4 are valid and whose count reaches the threshold is accepted, else nothing is written (R70 to R76, R79). -/
def Obligations.SynchronizeFirstFit : Prop :=
  ∀ s : State, Ready s → SearchFits s →
    exec .synchronize s = .next (match firstAccepted s with
      | some c => { s with bitslip := BitVec.ofNat 6 c, synced := true, reply := some ⟨.ok, .flag true⟩ }
      | none => { s with reply := some ⟨.ok, .flag false⟩ }) ∧
    ∀ c, firstAccepted s = some c → c < 64

/-- R74, R75, R120: whatever the buffer's length, SYNCHRONIZE writes `bitslip` and `synced` on acceptance only, the accepted
candidate being the lowest that its own test accepts; a BoundsViolation keeps both. -/
def Obligations.SynchronizeOutcomes : Prop :=
  ∀ s : State, Ready s →
    (∃ c, c < 64 ∧ tryCandidate s c = .ok true ∧ (∀ b, b < c → tryCandidate s b = .ok false) ∧
      exec .synchronize s =
        .next { s with bitslip := BitVec.ofNat 6 c, synced := true, reply := some ⟨.ok, .flag true⟩ }) ∨
    ((∀ c, c < 64 → tryCandidate s c = .ok false) ∧
      exec .synchronize s = .next { s with reply := some ⟨.ok, .flag false⟩ }) ∨
    (∃ c j, c < 64 ∧ tryCandidate s c = .error (.word j) ∧ s.n.toNat ≤ j ∧
      (∀ b, b < c → tryCandidate s b = .ok false) ∧
      exec .synchronize s =
        .next { s with fault := true, faultInfo := .word j, reply := some ⟨.boundsViolation, .faultInfo (.word j)⟩ })

/-- R78: with sample_size ≤ 5 the walk is empty, so a candidate is accepted iff its prefix is valid; the same with
threshold 0. -/
def Obligations.SmallSample : Prop :=
  ∀ (s : State) (c : Nat), s.threshold.toNat ≤ s.sampleSize.toNat →
    s.sampleSize.toNat ≤ 5 ∨ s.threshold.toNat = 0 → tryCandidate s c = prefixValid s c

/-! ### PROCESS -/

/-- R84: where MaxFrames returns `mf`, every frame k < mf lies wholly inside the buffer and is read without a
BoundsViolation; the formula can give one frame fewer than fit. -/
def Obligations.ProcessNeverReadsPastBuffer : Prop :=
  ∀ (s : State) (mf : Nat), maxFrames s = .ok mf →
    (∀ k, k < mf → s.bitslip.toNat + 66 * k + 66 ≤ 32 * s.n.toNat ∧ ∃ r, nextFrame s k = .ok r) ∧
    (s.bitslip = 0 → 66 * mf ≤ 32 * s.n.toNat) ∧
    (s.bitslip ≠ 0 → s.bitslip.toNat + 66 * mf < 32 * s.n.toNat) ∧
    mf ≤ (32 * s.n.toNat - s.bitslip.toNat) / 66 ∧ (32 * s.n.toNat - s.bitslip.toNat) / 66 ≤ mf + 1

/-- R85 to R88, where max_frames does not underflow: PROCESS completes; the packet buffer holds exactly the kept frames'
records in ascending order, `ber_counter` is `(count · 100) div (max_frames + 1)`, at most 99, and nothing else is written. -/
def Obligations.ProcessMatchesStream : Prop :=
  ∀ (d : Bool) (s : State), Ready s → FramesFit s →
    exec (.process d) s =
      .next { s with
        packets := processedPackets s d
        berCounter := processedBer s
        reply := some ⟨.ok, .noResult⟩ } ∧
    processedBer s ≤ 99

/-- R83, R119, R120: a nonzero slip on a buffer of at most two words makes PROCESS enter FAULTED with UNDERFLOW; every
element PROCESS does not write keeps its value. -/
def Obligations.ProcessUnderflow : Prop :=
  ∀ (d : Bool) (s : State), Ready s → s.bitslip ≠ 0 → s.n.toNat ≤ 2 →
    ∃ t, exec (.process d) s = .next t ∧
      t.fault = true ∧ t.faultInfo = .underflow ∧ t.reply = some ⟨.boundsViolation, .faultInfo .underflow⟩ ∧
      t.buf = s.buf ∧ t.n = s.n ∧ t.sampleSize = s.sampleSize ∧ t.threshold = s.threshold ∧
      t.bitslip = s.bitslip ∧ t.synced = s.synced ∧ t.configured = s.configured ∧ t.mem = s.mem

/-- After a PROCESS that completes `ber_counter` lies in [0, 99], and at most max_frames records are held. -/
def Obligations.ProcessBounds : Prop :=
  ∀ (d : Bool) (s t : State), Ready s → exec (.process d) s = .next t → t.fault = false →
    t.berCounter ≤ 99 ∧ t.packets.length ≤ frameCount s

/-- PROCESS's loop is the frame rows of the opcode table one after another: the state it ends in is the one that counting the
errors and pushing the records the rows answer gives, over the decoded frame words of the frames it reads (the model's frame
rows, log 7). -/
def Obligations.ProcessRunsFrameRows : Prop :=
  ∀ (d : Bool) (s u : State) (m k : Nat), processLoop d m k s = .ok u →
    ∃ fs : List FrameWord, fs.length = m ∧
      (∀ j, j < m → ∃ sync r, syncRead s s.bitslip.toNat (k + j) = .ok sync ∧
        nextFrame s (k + j) = .ok r ∧ fs[j]? = some (sync.setWidth 2 ++ r.payload)) ∧
      u = takeFrames d k fs s

/-! ### The frame rows -/

/-- A data frame (R39): its record, no control kind, no error; no state is written (log 7). -/
def Obligations.DataFrameCompletes : Prop :=
  ∀ (d : Payload) (s : State), exec (.data d) s = .next { s with reply := some ⟨.ok, .frame ⟨.data, d⟩ none 0⟩ }

/-- The sixteen control rows (R42, R43, R90): the record's payload has the row's BTF in bits [63:56], the control kind is the
row's name, and none counts as an error; no state is written (log 7). -/
def Obligations.ControlFramesComplete : Prop :=
  ∀ (x : BitVec 56) (s : State),
    exec (.ctrlIdle x) s = .next { s with reply := some ⟨.ok, .frame ⟨.control, 0x78#8 ++ x⟩ (some .idle) 0⟩ } ∧
    exec (.ctrlNfc x) s = .next { s with reply := some ⟨.ok, .frame ⟨.control, 0xAA#8 ++ x⟩ (some .nfc) 0⟩ } ∧
    exec (.ctrlUfc x) s = .next { s with reply := some ⟨.ok, .frame ⟨.control, 0x2D#8 ++ x⟩ (some .ufc) 0⟩ } ∧
    exec (.ctrlSep x) s = .next { s with reply := some ⟨.ok, .frame ⟨.control, 0x1E#8 ++ x⟩ (some .sep) 0⟩ } ∧
    exec (.ctrlSep7 x) s = .next { s with reply := some ⟨.ok, .frame ⟨.control, 0xE1#8 ++ x⟩ (some .sep7) 0⟩ } ∧
    exec (.ctrlK0 x) s = .next { s with reply := some ⟨.ok, .frame ⟨.control, 0xD2#8 ++ x⟩ (some .k0) 0⟩ } ∧
    exec (.ctrlK1 x) s = .next { s with reply := some ⟨.ok, .frame ⟨.control, 0x99#8 ++ x⟩ (some .k1) 0⟩ } ∧
    exec (.ctrlK2 x) s = .next { s with reply := some ⟨.ok, .frame ⟨.control, 0x55#8 ++ x⟩ (some .k2) 0⟩ } ∧
    exec (.ctrlK3 x) s = .next { s with reply := some ⟨.ok, .frame ⟨.control, 0xB4#8 ++ x⟩ (some .k3) 0⟩ } ∧
    exec (.ctrlK4 x) s = .next { s with reply := some ⟨.ok, .frame ⟨.control, 0xCC#8 ++ x⟩ (some .k4) 0⟩ } ∧
    exec (.ctrlK5 x) s = .next { s with reply := some ⟨.ok, .frame ⟨.control, 0x66#8 ++ x⟩ (some .k5) 0⟩ } ∧
    exec (.ctrlK6 x) s = .next { s with reply := some ⟨.ok, .frame ⟨.control, 0x33#8 ++ x⟩ (some .k6) 0⟩ } ∧
    exec (.ctrlK7 x) s = .next { s with reply := some ⟨.ok, .frame ⟨.control, 0x4B#8 ++ x⟩ (some .k7) 0⟩ } ∧
    exec (.ctrlK8 x) s = .next { s with reply := some ⟨.ok, .frame ⟨.control, 0x87#8 ++ x⟩ (some .k8) 0⟩ } ∧
    exec (.ctrlRes x) s = .next { s with reply := some ⟨.ok, .frame ⟨.control, 0xFF#8 ++ x⟩ (some .res) 0⟩ } ∧
    ∀ b : Byte, btfName b = .other →
      exec (.ctrlOther b x) s = .next { s with reply := some ⟨.ok, .frame ⟨.control, b ++ x⟩ (some .other) 0⟩ }

/-- The two header errors (R80, R117): the record has type error, no control kind, and adds 1 to the error count; no state is
written and the machine goes on (log 7). -/
def Obligations.ErrorFramesComplete : Prop :=
  ∀ (x : Payload) (s : State),
    exec (.error00 x) s = .next { s with reply := some ⟨.ok, .frame ⟨.error, x⟩ none 1⟩ } ∧
    exec (.error11 x) s = .next { s with reply := some ⟨.ok, .frame ⟨.error, x⟩ none 1⟩ }

/-- R42, R43, R90: a frame word of sync header 10 is a control frame whatever its BTF, and the class of its control kind is
the table's; a value outside the table is generic (log 7). -/
def Obligations.ControlClassByBtf : Prop :=
  ∀ (b : Byte) (x : BitVec 56) (s : State), ∃ kind : BtfName,
    exec (decodeFrame ((0b10 : BitVec 2) ++ (b ++ x))) s =
      .next { s with reply := some ⟨.ok, .frame ⟨.control, b ++ x⟩ (some kind) 0⟩ } ∧
    btfClass kind =
      if b = 0x78 then .idle else if b = 0xAA then .nfc else if b = 0x2D then .ufc else if b = 0x1E then .sep
      else if b = 0xE1 then .sep7 else .generic

/-! ### The packet decoders -/

/-- R92: parity is popcount mod 2, the XOR of the bits, and leading zeros do not change it. -/
def Obligations.ParityIsXor : Prop :=
  ∀ (w : Nat) (v : BitVec w),
    (parity v = true ↔ popcount v % 2 = 1) ∧
    parity v = ((List.range w).map v.getLsbD).foldl (· ^^ ·) false ∧
    ∀ e : Nat, parity (v.setWidth (w + e)) = parity v

/-- DECODE_EVENT (R93, R94, R96): the slices of D as numbers, the flags, and no state written, in any state. -/
def Obligations.DecodeEventCompletes : Prop :=
  ∀ (d : Payload) (s : State), ∃ e : EventRecord,
    exec (.decodeEvent d) s = .next { s with reply := some ⟨.ok, .event e⟩ } ∧
    e.channel.toNat = d.toNat / 2 ^ 60 ∧
    e.evType.toNat = d.toNat / 2 ^ 58 % 2 ^ 2 ∧
    e.timestamp.toNat = d.toNat / 2 ^ 36 % 2 ^ 22 ∧
    e.pulseWidth.toNat = d.toNat / 2 ^ 22 % 2 ^ 14 ∧
    e.debug = d.getLsbD 21 ∧ e.chP = d.getLsbD 20 ∧ e.tP = d.getLsbD 19 ∧ e.tsP = d.getLsbD 18 ∧
    e.pwP = d.getLsbD 17 ∧ e.combinedP = d.getLsbD 16 ∧
    (e.channelOk = true ↔ (parity e.channel = e.chP)) ∧
    (e.typeOk = true ↔ (parity e.evType = e.tP)) ∧
    (e.timestampOk = true ↔ (parity e.timestamp = e.tsP)) ∧
    (e.pulseWidthOk = true ↔ (parity e.pulseWidth = e.pwP)) ∧
    (e.hasValidParity = true ↔ (((e.chP ^^ e.tP) ^^ e.tsP) ^^ e.pwP) = e.combinedP)

/-- has_valid_parity comes from the stored bits (R95's formula; log 22): it holds for some payload with a false field flag, and fails for some
payload with all four flags true. -/
def Obligations.ValidParityIsFromStoredBits : Prop :=
  (∀ d : Payload, (decodeEventPayload d).hasValidParity =
    ((((d.getLsbD 20 ^^ d.getLsbD 19) ^^ d.getLsbD 18) ^^ d.getLsbD 17) == d.getLsbD 16)) ∧
  (∃ d : Payload, (decodeEventPayload d).hasValidParity = true ∧ (decodeEventPayload d).channelOk = false) ∧
  (∃ d : Payload, (decodeEventPayload d).hasValidParity = false ∧ (decodeEventPayload d).channelOk = true ∧
    (decodeEventPayload d).typeOk = true ∧ (decodeEventPayload d).timestampOk = true ∧
    (decodeEventPayload d).pulseWidthOk = true)

/-- R100: a payload whose parity bits follow the encoder rule passes all five checks, and flipping any one of D[20:16] makes
has_valid_parity false. -/
def Obligations.ParityBitFlipDetected : Prop :=
  ∀ p : EventPacket,
    p.chP = parity p.channel → p.tP = parity p.evType → p.tsP = parity p.timestamp → p.pwP = parity p.pulseWidth →
    p.combinedP = (((p.chP ^^ p.tP) ^^ p.tsP) ^^ p.pwP) →
    (decodeEventPayload (eventToBits p)).channelOk = true ∧ (decodeEventPayload (eventToBits p)).typeOk = true ∧
    (decodeEventPayload (eventToBits p)).timestampOk = true ∧ (decodeEventPayload (eventToBits p)).pulseWidthOk = true ∧
    (decodeEventPayload (eventToBits p)).hasValidParity = true ∧
    ∀ b, 16 ≤ b → b ≤ 20 →
      (decodeEventPayload (eventToBits p ^^^ ((1 : Payload) <<< b))).hasValidParity = false

/-- DECODE_STATISTICS (R97): the five counters by their places in D1 and D2, in any state, and no state written. -/
def Obligations.DecodeStatisticsCompletes : Prop :=
  ∀ (d1 d2 : Payload) (s : State), ∃ r : StatisticsRecord,
    exec (.decodeStatistics d1 d2) s = .next { s with reply := some ⟨.ok, .statistics r⟩ } ∧
    r.fifoDrop = d1.extractLsb' 44 20 ∧
    r.pwidthDrop = d1.extractLsb' 24 20 ∧
    r.dcountDrop = d1.extractLsb' 4 20 ∧
    r.triggerDrop.toNat = d1.toNat % 2 ^ 4 * 2 ^ 16 + d2.toNat / 2 ^ 48 ∧
    r.pulseError = d2.extractLsb' 32 16

/-- DECODE_EXTENSION (R98): the three fields as numbers, in any state, and no state written. -/
def Obligations.DecodeExtensionCompletes : Prop :=
  ∀ (d : Payload) (s : State), ∃ r : ExtensionRecord,
    exec (.decodeExtension d) s = .next { s with reply := some ⟨.ok, .extension r⟩ } ∧
    r.packetCount.toNat = d.toNat / 2 ^ 41 ∧
    r.coarseCounter.toNat = d.toNat / 2 ^ 17 % 2 ^ 24 ∧
    r.resetFlag = d.getLsbD 16

/-- The packet rows (R44, R47, R48): presenting a packet's bits to its decoder gives the record the decoder command gives for
the same bits, and writes no state (the model's packet rows, log 8). -/
def Obligations.PacketRowsComplete : Prop :=
  ∀ (p : EventPacket) (q : StatisticsPacket) (x : ExtensionPacket) (s : State),
    exec (.eventPacket p) s =
      .next { s with reply := some ⟨.ok, .event (decodeEventPayload (eventToBits p))⟩ } ∧
    exec (.statisticsPacket q) s =
      .next { s with reply := some ⟨.ok, .statistics
        (decodeStatisticsPayloads ((statisticsToBits q).extractLsb' 64 64) ((statisticsToBits q).extractLsb' 0 64))⟩ } ∧
    exec (.extensionPacket x) s =
      .next { s with reply := some ⟨.ok, .extension (decodeExtensionPayload (extensionToBits x))⟩ }

/-- The unused bits never change a result: D[15:0] of the event and extension packets, C[31:0] of the statistics packet. -/
def Obligations.UnusedBitsIgnored : Prop :=
  ∀ (d d1 d2 : Payload) (u : BitVec 16) (v : BitVec 32),
    decodeEventPayload (d.extractLsb' 16 48 ++ u) = decodeEventPayload d ∧
    decodeExtensionPayload (d.extractLsb' 16 48 ++ u) = decodeExtensionPayload d ∧
    decodeStatisticsPayloads d1 (d2.extractLsb' 32 32 ++ v) = decodeStatisticsPayloads d1 d2

/-! ### Isolation -/

/-- Two states that differ at most in unspecified elements step alike: no observation depends on a value the spec leaves
open (R130, R144; the elements of log 5, 11 and 12 among them). -/
def Obligations.UnspecifiedUnobservable : Prop :=
  ∀ s t : State, Indistinguishable s t → SameOutcome (step s) (step t)

/-- An instruction reads memory only in the attached buffer: words outside it change neither its reply nor the state it
leaves (R23, R37, R144). -/
def Obligations.OnlyAttachedBufferRead : Prop :=
  ∀ (i : Instr) (s t s' : State), SameBuffer s t → exec i s = .next s' → exec i t = .next { s' with mem := t.mem }

/-! ### What a host can observe -/

/-- In every state that meets the invariant, what the readouts return is bounded as R15 and R16 say: GET_BER's value lies in
[0, 99], and GET_PACKET_BUFFER's count is the number of its records and at most ⌊32·MAX_WORDS/66⌋. -/
def Obligations.ReadoutsBounded : Prop :=
  ∀ s : State, Inv s → Ready s →
    (∃ t v, exec .getBer s = .next t ∧ t.reply = some ⟨.ok, .number v⟩ ∧ v ≤ 99) ∧
    ∃ t count recs, exec .getPacketBuffer s = .next t ∧ t.reply = some ⟨.ok, .records count recs⟩ ∧
      count = recs.length ∧ count ≤ 32 * s.hw.maxWords / 66
end

