-- ==== Sys2Proof/Laws/Memory.lean ====
section
/-! SUPPORT. The laws of memory: a read after a write, and the canonical form that every memory operation keeps. -/

namespace Sys2Proof.Machine

theorem wfFrom_mono {lo lo' : Nat} {m : Memory} (h : wfFrom lo m = true) (hlo : lo' ≤ lo) : wfFrom lo' m = true := by
  cases m with
  | nil => rfl
  | cons e rest =>
    simp only [wfFrom, Bool.and_eq_true, decide_eq_true_eq] at h ⊢
    exact ⟨hlo.trans h.1, h.2⟩

/-- Below its first address a canonical memory lists nothing. -/
theorem readByte_below {lo a : Nat} {m : Memory} (h : wfFrom lo m = true) (ha : a < lo) :
    readByte m a = unlistedByte := by
  induction m generalizing lo with
  | nil => rfl
  | cons e rest ih =>
    simp only [wfFrom, Bool.and_eq_true, decide_eq_true_eq] at h
    have hne : e.1 ≠ a := by omega
    simp only [readByte, if_neg hne]
    exact ih h.2.2 (by omega)

theorem readByte_writeByte_same {lo : Nat} {m : Memory} (h : wfFrom lo m = true) (a : Nat) (v : Byte) :
    readByte (writeByte m a v) a = v := by
  induction m generalizing lo with
  | nil => by_cases hv : v = unlistedByte <;> simp [writeByte, readByte, hv]
  | cons e rest ih =>
    simp only [wfFrom, Bool.and_eq_true, decide_eq_true_eq] at h
    obtain ⟨b, w⟩ := e
    rcases Nat.lt_trichotomy a b with hab | hab | hab
    · have hne : b ≠ a := by omega
      have hbelow : readByte rest a = unlistedByte := readByte_below h.2.2 (by simp only; omega)
      by_cases hv : v = unlistedByte <;> simp [writeByte, readByte, hab, hv, hne, hbelow]
    · subst hab
      have hbelow : readByte rest a = unlistedByte := readByte_below h.2.2 (by simp only; omega)
      by_cases hv : v = unlistedByte <;> simp [writeByte, readByte, hv, hbelow]
    · have h1 : ¬ a < b := by omega
      have h2 : ¬ a = b := by omega
      have h3 : ¬ b = a := by omega
      simp only [writeByte, if_neg h1, if_neg h2, readByte, if_neg h3]
      exact ih h.2.2

theorem readByte_writeByte_other (m : Memory) {a a' : Nat} (v : Byte) (h : a' ≠ a) :
    readByte (writeByte m a v) a' = readByte m a' := by
  induction m with
  | nil =>
    by_cases hv : v = unlistedByte
    · simp [writeByte, readByte, hv]
    · simp [writeByte, readByte, hv, Ne.symm h]
  | cons e rest ih =>
    obtain ⟨b, w⟩ := e
    rcases Nat.lt_trichotomy a b with hab | hab | hab
    · by_cases hv : v = unlistedByte <;> simp [writeByte, readByte, hab, hv, Ne.symm h]
    · subst hab
      by_cases hv : v = unlistedByte <;> simp [writeByte, readByte, hv, Ne.symm h]
    · have h1 : ¬ a < b := by omega
      have h2 : ¬ a = b := by omega
      by_cases hb : b = a'
      · simp only [writeByte, if_neg h1, if_neg h2, readByte, if_pos hb]
      · simp only [writeByte, if_neg h1, if_neg h2, readByte, if_neg hb]
        exact ih

theorem writeByte_wfFrom {lo : Nat} {m : Memory} (h : wfFrom lo m = true) {a : Nat} (ha : lo ≤ a) (v : Byte) :
    wfFrom lo (writeByte m a v) = true := by
  induction m generalizing lo with
  | nil => by_cases hv : v = unlistedByte <;> simp [writeByte, wfFrom, hv, ha]
  | cons e rest ih =>
    obtain ⟨b, w⟩ := e
    simp only [wfFrom, Bool.and_eq_true, decide_eq_true_eq] at h
    obtain ⟨h1, h2, h3⟩ := h
    rcases Nat.lt_trichotomy a b with hab | hab | hab
    · by_cases hv : v = unlistedByte
      · simp [writeByte, wfFrom, hab, hv, h1, h2, h3]
      · have hab' : a + 1 ≤ b := hab
        simp [writeByte, wfFrom, hab, hv, ha, hab', h2, h3]
    · subst hab
      by_cases hv : v = unlistedByte
      · simp [writeByte, hv, wfFrom_mono h3 (by omega : lo ≤ a + 1)]
      · simp [writeByte, wfFrom, hv, ha, h3]
    · have n1 : ¬ a < b := by omega
      have n2 : ¬ a = b := by omega
      simp only [writeByte, if_neg n1, if_neg n2, wfFrom, Bool.and_eq_true, decide_eq_true_eq]
      exact ⟨h1, h2, ih h3 (by omega)⟩

/-- Writing a byte keeps the canonical form. -/
theorem writeByte_wf {m : Memory} (h : m.wf = true) (a : Nat) (v : Byte) : Memory.wf (writeByte m a v) = true :=
  writeByte_wfFrom h (Nat.zero_le a) v

/-- Writing a word keeps the canonical form. -/
theorem writeWord_wf {m : Memory} (h : m.wf = true) (r : Handle) (i : Nat) (w : Word) :
    Memory.wf (writeWord m r i w) = true :=
  writeByte_wf (writeByte_wf (writeByte_wf (writeByte_wf h _ _) _ _) _ _) _ _

/-- A word is its four bytes. -/
theorem word_of_bytes (w : Word) :
    w.extractLsb' 24 8 ++ w.extractLsb' 16 8 ++ w.extractLsb' 8 8 ++ w.extractLsb' 0 8 = w := by
  apply BitVec.eq_of_getLsbD_eq
  intro i hi
  simp only [BitVec.getLsbD_append, BitVec.getLsbD_extractLsb']
  by_cases h1 : i < 8
  · simp [h1]
  · by_cases h2 : i - 8 < 8
    · have : 8 + (i - 8) = i := by omega
      simp [h1, h2, this]
    · by_cases h3 : i - 8 - 8 < 8
      · have : 16 + (i - 8 - 8) = i := by omega
        simp [h1, h2, h3, this]
      · have h4 : i - 8 - 8 - 8 < 8 := by omega
        have : 24 + (i - 8 - 8 - 8) = i := by omega
        simp [h1, h2, h3, h4, this]

/-- A read after a write of the same word gives the word written. -/
theorem readWord_writeWord_same {m : Memory} (h : m.wf = true) (r : Handle) (i : Nat) (w : Word) :
    readWord (writeWord m r i w) r i = w := by
  unfold Memory.wf at h
  have h1 := writeByte_wfFrom h (Nat.zero_le (wordAddr r i)) (w.extractLsb' 24 8)
  have h2 := writeByte_wfFrom h1 (Nat.zero_le (wordAddr r i + 1)) (w.extractLsb' 16 8)
  have h3 := writeByte_wfFrom h2 (Nat.zero_le (wordAddr r i + 2)) (w.extractLsb' 8 8)
  simp only [readWord, writeWord]
  rw [readByte_writeByte_other _ _ (by omega : wordAddr r i ≠ wordAddr r i + 3),
    readByte_writeByte_other _ _ (by omega : wordAddr r i ≠ wordAddr r i + 2),
    readByte_writeByte_other _ _ (by omega : wordAddr r i ≠ wordAddr r i + 1),
    readByte_writeByte_other _ _ (by omega : wordAddr r i + 1 ≠ wordAddr r i + 3),
    readByte_writeByte_other _ _ (by omega : wordAddr r i + 1 ≠ wordAddr r i + 2),
    readByte_writeByte_other _ _ (by omega : wordAddr r i + 2 ≠ wordAddr r i + 3),
    readByte_writeByte_same h, readByte_writeByte_same h1, readByte_writeByte_same h2, readByte_writeByte_same h3]
  exact word_of_bytes w

/-- Two words, each with an index a buffer can have, share no byte unless they are the same word of the same region. -/
theorem wordAddr_apart {r r' : Handle} {i i' : Nat} (hi : i < 2 ^ 32) (hi' : i' < 2 ^ 32) (hne : ¬ (r = r' ∧ i = i')) :
    wordAddr r i + 3 < wordAddr r' i' ∨ wordAddr r' i' + 3 < wordAddr r i := by
  simp only [wordAddr]
  rcases Nat.lt_trichotomy r.toNat r'.toNat with h | h | h
  · left; omega
  · have hii : i ≠ i' := fun hii => hne ⟨BitVec.eq_of_toNat_eq h, hii⟩
    omega
  · right; omega

/-- A write leaves every other word alone. -/
theorem readWord_writeWord_other (m : Memory) {r r' : Handle} {i i' : Nat} (w : Word) (hi : i < 2 ^ 32)
    (hi' : i' < 2 ^ 32) (hne : ¬ (r = r' ∧ i = i')) : readWord (writeWord m r i w) r' i' = readWord m r' i' := by
  have hap := wordAddr_apart hi hi' hne
  have key : ∀ j, j < 4 → readByte (writeWord m r i w) (wordAddr r' i' + j) = readByte m (wordAddr r' i' + j) := by
    intro j hj
    simp only [writeWord]
    rw [readByte_writeByte_other _ _ (by omega), readByte_writeByte_other _ _ (by omega),
      readByte_writeByte_other _ _ (by omega), readByte_writeByte_other _ _ (by omega)]
  have k0 := key 0 (by omega)
  simp only [Nat.add_zero] at k0
  simp only [readWord, k0, key 1 (by omega), key 2 (by omega), key 3 (by omega)]

/-- Memory at reset is canonical. -/
theorem reset_mem_wf : State.reset.mem.wf = true := rfl

end Sys2Proof.Machine
end

