-- ==== Sys2Proof/Laws/State.lean ====
section
/-! SUPPORT. What each update of State does to each field, one lemma a field, all by rfl. -/

namespace Sys2Proof.Machine

variable (s : State)

/-! ### State.answer -/

@[simp] theorem State.answer_hw (st : Status) (r : Result) : (s.answer st r).hw = s.hw := rfl
@[simp] theorem State.answer_configured (st : Status) (r : Result) : (s.answer st r).configured = s.configured := rfl
@[simp] theorem State.answer_buf (st : Status) (r : Result) : (s.answer st r).buf = s.buf := rfl
@[simp] theorem State.answer_n (st : Status) (r : Result) : (s.answer st r).n = s.n := rfl
@[simp] theorem State.answer_bitslip (st : Status) (r : Result) : (s.answer st r).bitslip = s.bitslip := rfl
@[simp] theorem State.answer_synced (st : Status) (r : Result) : (s.answer st r).synced = s.synced := rfl
@[simp] theorem State.answer_sampleSize (st : Status) (r : Result) : (s.answer st r).sampleSize = s.sampleSize := rfl
@[simp] theorem State.answer_threshold (st : Status) (r : Result) : (s.answer st r).threshold = s.threshold := rfl
@[simp] theorem State.answer_berCounter (st : Status) (r : Result) : (s.answer st r).berCounter = s.berCounter := rfl
@[simp] theorem State.answer_packets (st : Status) (r : Result) : (s.answer st r).packets = s.packets := rfl
@[simp] theorem State.answer_fault (st : Status) (r : Result) : (s.answer st r).fault = s.fault := rfl
@[simp] theorem State.answer_faultInfo (st : Status) (r : Result) : (s.answer st r).faultInfo = s.faultInfo := rfl
@[simp] theorem State.answer_mem (st : Status) (r : Result) : (s.answer st r).mem = s.mem := rfl
@[simp] theorem State.answer_inbox (st : Status) (r : Result) : (s.answer st r).inbox = s.inbox := rfl
@[simp] theorem State.answer_reply (st : Status) (r : Result) : (s.answer st r).reply = some { status := st, result := r } := rfl
@[simp] theorem State.answer_freeCount (st : Status) (r : Result) : (s.answer st r).freeCount = s.freeCount := rfl

/-! ### State.refuse -/

@[simp] theorem State.refuse_hw (st : Status) : (s.refuse st).hw = s.hw := rfl
@[simp] theorem State.refuse_configured (st : Status) : (s.refuse st).configured = s.configured := rfl
@[simp] theorem State.refuse_buf (st : Status) : (s.refuse st).buf = s.buf := rfl
@[simp] theorem State.refuse_n (st : Status) : (s.refuse st).n = s.n := rfl
@[simp] theorem State.refuse_bitslip (st : Status) : (s.refuse st).bitslip = s.bitslip := rfl
@[simp] theorem State.refuse_synced (st : Status) : (s.refuse st).synced = s.synced := rfl
@[simp] theorem State.refuse_sampleSize (st : Status) : (s.refuse st).sampleSize = s.sampleSize := rfl
@[simp] theorem State.refuse_threshold (st : Status) : (s.refuse st).threshold = s.threshold := rfl
@[simp] theorem State.refuse_berCounter (st : Status) : (s.refuse st).berCounter = s.berCounter := rfl
@[simp] theorem State.refuse_packets (st : Status) : (s.refuse st).packets = s.packets := rfl
@[simp] theorem State.refuse_fault (st : Status) : (s.refuse st).fault = s.fault := rfl
@[simp] theorem State.refuse_faultInfo (st : Status) : (s.refuse st).faultInfo = s.faultInfo := rfl
@[simp] theorem State.refuse_mem (st : Status) : (s.refuse st).mem = s.mem := rfl
@[simp] theorem State.refuse_inbox (st : Status) : (s.refuse st).inbox = s.inbox := rfl
@[simp] theorem State.refuse_reply (st : Status) : (s.refuse st).reply = some { status := st, result := .noResult } := rfl
@[simp] theorem State.refuse_freeCount (st : Status) : (s.refuse st).freeCount = s.freeCount := rfl

/-! ### State.raiseBounds -/

@[simp] theorem State.raiseBounds_hw (fi : FaultInfo) : (s.raiseBounds fi).hw = s.hw := rfl
@[simp] theorem State.raiseBounds_configured (fi : FaultInfo) : (s.raiseBounds fi).configured = s.configured := rfl
@[simp] theorem State.raiseBounds_buf (fi : FaultInfo) : (s.raiseBounds fi).buf = s.buf := rfl
@[simp] theorem State.raiseBounds_n (fi : FaultInfo) : (s.raiseBounds fi).n = s.n := rfl
@[simp] theorem State.raiseBounds_bitslip (fi : FaultInfo) : (s.raiseBounds fi).bitslip = s.bitslip := rfl
@[simp] theorem State.raiseBounds_synced (fi : FaultInfo) : (s.raiseBounds fi).synced = s.synced := rfl
@[simp] theorem State.raiseBounds_sampleSize (fi : FaultInfo) : (s.raiseBounds fi).sampleSize = s.sampleSize := rfl
@[simp] theorem State.raiseBounds_threshold (fi : FaultInfo) : (s.raiseBounds fi).threshold = s.threshold := rfl
@[simp] theorem State.raiseBounds_berCounter (fi : FaultInfo) : (s.raiseBounds fi).berCounter = s.berCounter := rfl
@[simp] theorem State.raiseBounds_packets (fi : FaultInfo) : (s.raiseBounds fi).packets = s.packets := rfl
@[simp] theorem State.raiseBounds_fault (fi : FaultInfo) : (s.raiseBounds fi).fault = true := rfl
@[simp] theorem State.raiseBounds_faultInfo (fi : FaultInfo) : (s.raiseBounds fi).faultInfo = fi := rfl
@[simp] theorem State.raiseBounds_mem (fi : FaultInfo) : (s.raiseBounds fi).mem = s.mem := rfl
@[simp] theorem State.raiseBounds_inbox (fi : FaultInfo) : (s.raiseBounds fi).inbox = s.inbox := rfl
@[simp] theorem State.raiseBounds_reply (fi : FaultInfo) : (s.raiseBounds fi).reply = some { status := .boundsViolation, result := .faultInfo fi } := rfl
@[simp] theorem State.raiseBounds_freeCount (fi : FaultInfo) : (s.raiseBounds fi).freeCount = s.freeCount := rfl

/-! ### State.constructed -/

@[simp] theorem State.constructed_hw (h : Handle) (z : Word) (p : Byte) (q : Word) : (s.constructed h z p q).hw = s.hw := rfl
@[simp] theorem State.constructed_configured (h : Handle) (z : Word) (p : Byte) (q : Word) : (s.constructed h z p q).configured = true := rfl
@[simp] theorem State.constructed_buf (h : Handle) (z : Word) (p : Byte) (q : Word) : (s.constructed h z p q).buf = h := rfl
@[simp] theorem State.constructed_n (h : Handle) (z : Word) (p : Byte) (q : Word) : (s.constructed h z p q).n = z := rfl
@[simp] theorem State.constructed_bitslip (h : Handle) (z : Word) (p : Byte) (q : Word) : (s.constructed h z p q).bitslip = 0 := rfl
@[simp] theorem State.constructed_synced (h : Handle) (z : Word) (p : Byte) (q : Word) : (s.constructed h z p q).synced = false := rfl
@[simp] theorem State.constructed_sampleSize (h : Handle) (z : Word) (p : Byte) (q : Word) : (s.constructed h z p q).sampleSize = clampSample z q := rfl
@[simp] theorem State.constructed_threshold (h : Handle) (z : Word) (p : Byte) (q : Word) : (s.constructed h z p q).threshold = thresholdOf (clampSample z q) p := rfl
@[simp] theorem State.constructed_berCounter (h : Handle) (z : Word) (p : Byte) (q : Word) : (s.constructed h z p q).berCounter = 0 := rfl
@[simp] theorem State.constructed_packets (h : Handle) (z : Word) (p : Byte) (q : Word) : (s.constructed h z p q).packets = [] := rfl
@[simp] theorem State.constructed_fault (h : Handle) (z : Word) (p : Byte) (q : Word) : (s.constructed h z p q).fault = false := rfl
@[simp] theorem State.constructed_faultInfo (h : Handle) (z : Word) (p : Byte) (q : Word) : (s.constructed h z p q).faultInfo = Config.freeFaultInfo s.freeCount := rfl
@[simp] theorem State.constructed_mem (h : Handle) (z : Word) (p : Byte) (q : Word) : (s.constructed h z p q).mem = s.mem := rfl
@[simp] theorem State.constructed_inbox (h : Handle) (z : Word) (p : Byte) (q : Word) : (s.constructed h z p q).inbox = s.inbox := rfl
@[simp] theorem State.constructed_reply (h : Handle) (z : Word) (p : Byte) (q : Word) : (s.constructed h z p q).reply = s.reply := rfl
@[simp] theorem State.constructed_freeCount (h : Handle) (z : Word) (p : Byte) (q : Word) : (s.constructed h z p q).freeCount = s.freeCount + 1 := rfl

/-! ### State.attach -/

@[simp] theorem State.attach_hw (h : Handle) (z : Word) : (s.attach h z).hw = s.hw := rfl
@[simp] theorem State.attach_configured (h : Handle) (z : Word) : (s.attach h z).configured = s.configured := rfl
@[simp] theorem State.attach_buf (h : Handle) (z : Word) : (s.attach h z).buf = h := rfl
@[simp] theorem State.attach_n (h : Handle) (z : Word) : (s.attach h z).n = z := rfl
@[simp] theorem State.attach_bitslip (h : Handle) (z : Word) : (s.attach h z).bitslip = s.bitslip := rfl
@[simp] theorem State.attach_synced (h : Handle) (z : Word) : (s.attach h z).synced = s.synced := rfl
@[simp] theorem State.attach_sampleSize (h : Handle) (z : Word) : (s.attach h z).sampleSize = s.sampleSize := rfl
@[simp] theorem State.attach_threshold (h : Handle) (z : Word) : (s.attach h z).threshold = s.threshold := rfl
@[simp] theorem State.attach_berCounter (h : Handle) (z : Word) : (s.attach h z).berCounter = s.berCounter := rfl
@[simp] theorem State.attach_packets (h : Handle) (z : Word) : (s.attach h z).packets = s.packets := rfl
@[simp] theorem State.attach_fault (h : Handle) (z : Word) : (s.attach h z).fault = s.fault := rfl
@[simp] theorem State.attach_faultInfo (h : Handle) (z : Word) : (s.attach h z).faultInfo = s.faultInfo := rfl
@[simp] theorem State.attach_mem (h : Handle) (z : Word) : (s.attach h z).mem = s.mem := rfl
@[simp] theorem State.attach_inbox (h : Handle) (z : Word) : (s.attach h z).inbox = s.inbox := rfl
@[simp] theorem State.attach_reply (h : Handle) (z : Word) : (s.attach h z).reply = s.reply := rfl
@[simp] theorem State.attach_freeCount (h : Handle) (z : Word) : (s.attach h z).freeCount = s.freeCount := rfl

/-! ### State.setSlip -/

@[simp] theorem State.setSlip_hw (b : BitVec 6) : (s.setSlip b).hw = s.hw := rfl
@[simp] theorem State.setSlip_configured (b : BitVec 6) : (s.setSlip b).configured = s.configured := rfl
@[simp] theorem State.setSlip_buf (b : BitVec 6) : (s.setSlip b).buf = s.buf := rfl
@[simp] theorem State.setSlip_n (b : BitVec 6) : (s.setSlip b).n = s.n := rfl
@[simp] theorem State.setSlip_bitslip (b : BitVec 6) : (s.setSlip b).bitslip = b := rfl
@[simp] theorem State.setSlip_synced (b : BitVec 6) : (s.setSlip b).synced = s.synced := rfl
@[simp] theorem State.setSlip_sampleSize (b : BitVec 6) : (s.setSlip b).sampleSize = s.sampleSize := rfl
@[simp] theorem State.setSlip_threshold (b : BitVec 6) : (s.setSlip b).threshold = s.threshold := rfl
@[simp] theorem State.setSlip_berCounter (b : BitVec 6) : (s.setSlip b).berCounter = s.berCounter := rfl
@[simp] theorem State.setSlip_packets (b : BitVec 6) : (s.setSlip b).packets = s.packets := rfl
@[simp] theorem State.setSlip_fault (b : BitVec 6) : (s.setSlip b).fault = s.fault := rfl
@[simp] theorem State.setSlip_faultInfo (b : BitVec 6) : (s.setSlip b).faultInfo = s.faultInfo := rfl
@[simp] theorem State.setSlip_mem (b : BitVec 6) : (s.setSlip b).mem = s.mem := rfl
@[simp] theorem State.setSlip_inbox (b : BitVec 6) : (s.setSlip b).inbox = s.inbox := rfl
@[simp] theorem State.setSlip_reply (b : BitVec 6) : (s.setSlip b).reply = s.reply := rfl
@[simp] theorem State.setSlip_freeCount (b : BitVec 6) : (s.setSlip b).freeCount = s.freeCount := rfl

/-! ### State.acceptSlip -/

@[simp] theorem State.acceptSlip_hw (c : Nat) : (s.acceptSlip c).hw = s.hw := rfl
@[simp] theorem State.acceptSlip_configured (c : Nat) : (s.acceptSlip c).configured = s.configured := rfl
@[simp] theorem State.acceptSlip_buf (c : Nat) : (s.acceptSlip c).buf = s.buf := rfl
@[simp] theorem State.acceptSlip_n (c : Nat) : (s.acceptSlip c).n = s.n := rfl
@[simp] theorem State.acceptSlip_bitslip (c : Nat) : (s.acceptSlip c).bitslip = BitVec.ofNat 6 c := rfl
@[simp] theorem State.acceptSlip_synced (c : Nat) : (s.acceptSlip c).synced = true := rfl
@[simp] theorem State.acceptSlip_sampleSize (c : Nat) : (s.acceptSlip c).sampleSize = s.sampleSize := rfl
@[simp] theorem State.acceptSlip_threshold (c : Nat) : (s.acceptSlip c).threshold = s.threshold := rfl
@[simp] theorem State.acceptSlip_berCounter (c : Nat) : (s.acceptSlip c).berCounter = s.berCounter := rfl
@[simp] theorem State.acceptSlip_packets (c : Nat) : (s.acceptSlip c).packets = s.packets := rfl
@[simp] theorem State.acceptSlip_fault (c : Nat) : (s.acceptSlip c).fault = s.fault := rfl
@[simp] theorem State.acceptSlip_faultInfo (c : Nat) : (s.acceptSlip c).faultInfo = s.faultInfo := rfl
@[simp] theorem State.acceptSlip_mem (c : Nat) : (s.acceptSlip c).mem = s.mem := rfl
@[simp] theorem State.acceptSlip_inbox (c : Nat) : (s.acceptSlip c).inbox = s.inbox := rfl
@[simp] theorem State.acceptSlip_reply (c : Nat) : (s.acceptSlip c).reply = s.reply := rfl
@[simp] theorem State.acceptSlip_freeCount (c : Nat) : (s.acceptSlip c).freeCount = s.freeCount := rfl

/-! ### State.beginProcess -/

@[simp] theorem State.beginProcess_hw : s.beginProcess.hw = s.hw := rfl
@[simp] theorem State.beginProcess_configured : s.beginProcess.configured = s.configured := rfl
@[simp] theorem State.beginProcess_buf : s.beginProcess.buf = s.buf := rfl
@[simp] theorem State.beginProcess_n : s.beginProcess.n = s.n := rfl
@[simp] theorem State.beginProcess_bitslip : s.beginProcess.bitslip = s.bitslip := rfl
@[simp] theorem State.beginProcess_synced : s.beginProcess.synced = s.synced := rfl
@[simp] theorem State.beginProcess_sampleSize : s.beginProcess.sampleSize = s.sampleSize := rfl
@[simp] theorem State.beginProcess_threshold : s.beginProcess.threshold = s.threshold := rfl
@[simp] theorem State.beginProcess_berCounter : s.beginProcess.berCounter = 0 := rfl
@[simp] theorem State.beginProcess_packets : s.beginProcess.packets = [] := rfl
@[simp] theorem State.beginProcess_fault : s.beginProcess.fault = s.fault := rfl
@[simp] theorem State.beginProcess_faultInfo : s.beginProcess.faultInfo = s.faultInfo := rfl
@[simp] theorem State.beginProcess_mem : s.beginProcess.mem = s.mem := rfl
@[simp] theorem State.beginProcess_inbox : s.beginProcess.inbox = s.inbox := rfl
@[simp] theorem State.beginProcess_reply : s.beginProcess.reply = s.reply := rfl
@[simp] theorem State.beginProcess_freeCount : s.beginProcess.freeCount = s.freeCount := rfl

/-! ### State.finishProcess -/

@[simp] theorem State.finishProcess_hw (mf : Nat) : (s.finishProcess mf).hw = s.hw := rfl
@[simp] theorem State.finishProcess_configured (mf : Nat) : (s.finishProcess mf).configured = s.configured := rfl
@[simp] theorem State.finishProcess_buf (mf : Nat) : (s.finishProcess mf).buf = s.buf := rfl
@[simp] theorem State.finishProcess_n (mf : Nat) : (s.finishProcess mf).n = s.n := rfl
@[simp] theorem State.finishProcess_bitslip (mf : Nat) : (s.finishProcess mf).bitslip = s.bitslip := rfl
@[simp] theorem State.finishProcess_synced (mf : Nat) : (s.finishProcess mf).synced = s.synced := rfl
@[simp] theorem State.finishProcess_sampleSize (mf : Nat) : (s.finishProcess mf).sampleSize = s.sampleSize := rfl
@[simp] theorem State.finishProcess_threshold (mf : Nat) : (s.finishProcess mf).threshold = s.threshold := rfl
@[simp] theorem State.finishProcess_berCounter (mf : Nat) : (s.finishProcess mf).berCounter = s.berCounter * 100 / (mf + 1) := rfl
@[simp] theorem State.finishProcess_packets (mf : Nat) : (s.finishProcess mf).packets = s.packets := rfl
@[simp] theorem State.finishProcess_fault (mf : Nat) : (s.finishProcess mf).fault = s.fault := rfl
@[simp] theorem State.finishProcess_faultInfo (mf : Nat) : (s.finishProcess mf).faultInfo = s.faultInfo := rfl
@[simp] theorem State.finishProcess_mem (mf : Nat) : (s.finishProcess mf).mem = s.mem := rfl
@[simp] theorem State.finishProcess_inbox (mf : Nat) : (s.finishProcess mf).inbox = s.inbox := rfl
@[simp] theorem State.finishProcess_reply (mf : Nat) : (s.finishProcess mf).reply = s.reply := rfl
@[simp] theorem State.finishProcess_freeCount (mf : Nat) : (s.finishProcess mf).freeCount = s.freeCount := rfl

/-! ### State.abandonProcess -/

@[simp] theorem State.abandonProcess_hw : s.abandonProcess.hw = s.hw := rfl
@[simp] theorem State.abandonProcess_configured : s.abandonProcess.configured = s.configured := rfl
@[simp] theorem State.abandonProcess_buf : s.abandonProcess.buf = s.buf := rfl
@[simp] theorem State.abandonProcess_n : s.abandonProcess.n = s.n := rfl
@[simp] theorem State.abandonProcess_bitslip : s.abandonProcess.bitslip = s.bitslip := rfl
@[simp] theorem State.abandonProcess_synced : s.abandonProcess.synced = s.synced := rfl
@[simp] theorem State.abandonProcess_sampleSize : s.abandonProcess.sampleSize = s.sampleSize := rfl
@[simp] theorem State.abandonProcess_threshold : s.abandonProcess.threshold = s.threshold := rfl
@[simp] theorem State.abandonProcess_berCounter : s.abandonProcess.berCounter = Config.freeBer s.freeCount := rfl
@[simp] theorem State.abandonProcess_packets : s.abandonProcess.packets = Config.freePackets s.freeCount := rfl
@[simp] theorem State.abandonProcess_fault : s.abandonProcess.fault = s.fault := rfl
@[simp] theorem State.abandonProcess_faultInfo : s.abandonProcess.faultInfo = s.faultInfo := rfl
@[simp] theorem State.abandonProcess_mem : s.abandonProcess.mem = s.mem := rfl
@[simp] theorem State.abandonProcess_inbox : s.abandonProcess.inbox = s.inbox := rfl
@[simp] theorem State.abandonProcess_reply : s.abandonProcess.reply = s.reply := rfl
@[simp] theorem State.abandonProcess_freeCount : s.abandonProcess.freeCount = s.freeCount + 1 := rfl

/-! ### State.countError -/

@[simp] theorem State.countError_hw (c : FrameClass) : (s.countError c).hw = s.hw := rfl
@[simp] theorem State.countError_configured (c : FrameClass) : (s.countError c).configured = s.configured := rfl
@[simp] theorem State.countError_buf (c : FrameClass) : (s.countError c).buf = s.buf := rfl
@[simp] theorem State.countError_n (c : FrameClass) : (s.countError c).n = s.n := rfl
@[simp] theorem State.countError_bitslip (c : FrameClass) : (s.countError c).bitslip = s.bitslip := rfl
@[simp] theorem State.countError_synced (c : FrameClass) : (s.countError c).synced = s.synced := rfl
@[simp] theorem State.countError_sampleSize (c : FrameClass) : (s.countError c).sampleSize = s.sampleSize := rfl
@[simp] theorem State.countError_threshold (c : FrameClass) : (s.countError c).threshold = s.threshold := rfl
@[simp] theorem State.countError_berCounter (c : FrameClass) : (s.countError c).berCounter = s.berCounter + errorsOf c := rfl
@[simp] theorem State.countError_packets (c : FrameClass) : (s.countError c).packets = s.packets := rfl
@[simp] theorem State.countError_fault (c : FrameClass) : (s.countError c).fault = s.fault := rfl
@[simp] theorem State.countError_faultInfo (c : FrameClass) : (s.countError c).faultInfo = s.faultInfo := rfl
@[simp] theorem State.countError_mem (c : FrameClass) : (s.countError c).mem = s.mem := rfl
@[simp] theorem State.countError_inbox (c : FrameClass) : (s.countError c).inbox = s.inbox := rfl
@[simp] theorem State.countError_reply (c : FrameClass) : (s.countError c).reply = s.reply := rfl
@[simp] theorem State.countError_freeCount (c : FrameClass) : (s.countError c).freeCount = s.freeCount := rfl

/-! ### State.pktPush -/

@[simp] theorem State.pktPush_hw (r : FrameRecord) : (s.pktPush r).hw = s.hw := rfl
@[simp] theorem State.pktPush_configured (r : FrameRecord) : (s.pktPush r).configured = s.configured := rfl
@[simp] theorem State.pktPush_buf (r : FrameRecord) : (s.pktPush r).buf = s.buf := rfl
@[simp] theorem State.pktPush_n (r : FrameRecord) : (s.pktPush r).n = s.n := rfl
@[simp] theorem State.pktPush_bitslip (r : FrameRecord) : (s.pktPush r).bitslip = s.bitslip := rfl
@[simp] theorem State.pktPush_synced (r : FrameRecord) : (s.pktPush r).synced = s.synced := rfl
@[simp] theorem State.pktPush_sampleSize (r : FrameRecord) : (s.pktPush r).sampleSize = s.sampleSize := rfl
@[simp] theorem State.pktPush_threshold (r : FrameRecord) : (s.pktPush r).threshold = s.threshold := rfl
@[simp] theorem State.pktPush_berCounter (r : FrameRecord) : (s.pktPush r).berCounter = s.berCounter := rfl
@[simp] theorem State.pktPush_packets (r : FrameRecord) : (s.pktPush r).packets = s.packets ++ [r] := rfl
@[simp] theorem State.pktPush_fault (r : FrameRecord) : (s.pktPush r).fault = s.fault := rfl
@[simp] theorem State.pktPush_faultInfo (r : FrameRecord) : (s.pktPush r).faultInfo = s.faultInfo := rfl
@[simp] theorem State.pktPush_mem (r : FrameRecord) : (s.pktPush r).mem = s.mem := rfl
@[simp] theorem State.pktPush_inbox (r : FrameRecord) : (s.pktPush r).inbox = s.inbox := rfl
@[simp] theorem State.pktPush_reply (r : FrameRecord) : (s.pktPush r).reply = s.reply := rfl
@[simp] theorem State.pktPush_freeCount (r : FrameRecord) : (s.pktPush r).freeCount = s.freeCount := rfl

end Sys2Proof.Machine
end

