-- ==== Sys2Proof/Laws/Ops.lean ====
section
/-! SUPPORT. What each shared operation can do, said once: MemRead, the gate, the loop body, the search. -/

namespace Sys2Proof.Machine

/-! ### Except -/

/-- A bind that answers has answered twice. -/
theorem bind_ok_iff {ε α β : Type} {x : Except ε α} {f : α → Except ε β} {b : β} :
    (x >>= f) = .ok b ↔ ∃ a, x = .ok a ∧ f a = .ok b := by
  cases x with
  | error e => simp [bind, Except.bind]
  | ok a => simp [bind, Except.bind]

/-- A bind that raises has raised in its first part or in its second. -/
theorem bind_error_iff {ε α β : Type} {x : Except ε α} {f : α → Except ε β} {e : ε} :
    (x >>= f) = .error e ↔ x = .error e ∨ ∃ a, x = .ok a ∧ f a = .error e := by
  cases x with
  | error e' => simp [bind, Except.bind]
  | ok a => simp [bind, Except.bind]

/-! ### MemRead (20_memory.md R24) -/

theorem memRead_ok {s : State} {i : Nat} (h : i < s.n.toNat) : memRead s i = .ok (readWord s.mem s.buf i) := by
  simp [memRead, h]

theorem memRead_error {s : State} {i : Nat} (h : s.n.toNat ≤ i) : memRead s i = .error (.word i) := by
  simp [memRead, Nat.not_lt.mpr h]

/-- MemRead reads only `N`, the handle and the buffer. -/
theorem memRead_congr {s t : State} (hn : t.n = s.n) (hb : t.buf = s.buf) (hm : t.mem = s.mem) (i : Nat) :
    memRead t i = memRead s i := by
  simp [memRead, hn, hb, hm]

theorem syncRead_congr {s t : State} (hn : t.n = s.n) (hb : t.buf = s.buf) (hm : t.mem = s.mem) (c k : Nat) :
    syncRead t c k = syncRead s c k := by
  simp [syncRead, memRead_congr hn hb hm]

theorem payloadRead_congr {s t : State} (hn : t.n = s.n) (hb : t.buf = s.buf) (hm : t.mem = s.mem) (c k : Nat) :
    payloadRead t c k = payloadRead s c k := by
  simp [payloadRead, memRead_congr hn hb hm]

/-- NextFrame reads only `bitslip`, `N`, the handle and the buffer (43_frame_iterator.md R81). -/
theorem nextFrame_congr {s t : State} (hs : t.bitslip = s.bitslip) (hn : t.n = s.n) (hb : t.buf = s.buf)
    (hm : t.mem = s.mem) (k : Nat) : nextFrame t k = nextFrame s k := by
  simp [nextFrame, hs, syncRead_congr hn hb hm, payloadRead_congr hn hb hm]

/-! ### The gate (45_receiver_commands.md R101) -/

theorem gated_ready {s : State} {body : State → Host.Outcome State Fault Refusal} (hf : s.fault = false)
    (hc : s.configured = true) : gated s body = body s := by
  simp [gated, hf, hc]

theorem gated_faulted {s : State} {body : State → Host.Outcome State Fault Refusal} (hf : s.fault = true) :
    gated s body = .next (s.refuse .refusedFaulted) := by
  simp [gated, hf]

theorem gated_unconfigured {s : State} {body : State → Host.Outcome State Fault Refusal} (hf : s.fault = false)
    (hc : s.configured = false) : gated s body = .next (s.refuse .refusedUnconfigured) := by
  simp [gated, hf, hc]

/-- Everything a gated command can answer. -/
theorem gated_next {s t : State} {body : State → Host.Outcome State Fault Refusal} (h : gated s body = .next t) :
    (s.fault = true ∧ t = s.refuse .refusedFaulted) ∨
    (s.fault = false ∧ s.configured = false ∧ t = s.refuse .refusedUnconfigured) ∨
    (s.fault = false ∧ s.configured = true ∧ body s = .next t) := by
  unfold gated at h
  split at h
  · next hf => exact .inl ⟨hf, by cases h; rfl⟩
  · next hf =>
    split at h
    · next hc => exact .inr (.inr ⟨by simpa using hf, hc, h⟩)
    · next hc => exact .inr (.inl ⟨by simpa using hf, by simpa using hc, by cases h; rfl⟩)

/-! ### The loop body (43_frame_iterator.md R85) -/

theorem errorsOf_le (cls : FrameClass) : errorsOf cls ≤ 1 := by cases cls <;> decide

/-- The loop body writes the error count and the packet buffer, and nothing else. -/
theorem acceptFrame_eq (d : Bool) (k : Nat) (r : FrameRecord) (s : State) :
    acceptFrame d k r s =
      { s with
        berCounter := s.berCounter + errorsOf r.cls
        packets := if skipsRecord s.hw.frame0Policy d k r then s.packets else s.packets ++ [r] } := by
  unfold acceptFrame
  split <;> simp [State.countError, State.pktPush]

/-- The loop of PROCESS writes the error count and the packet buffer, and nothing else. -/
theorem processLoop_ok {d : Bool} {m k : Nat} {s t : State} (h : processLoop d m k s = .ok t) :
    ∃ recs errs, t = { s with packets := s.packets ++ recs, berCounter := s.berCounter + errs } ∧
      recs.length ≤ m ∧ errs ≤ m := by
  induction m generalizing k s with
  | zero =>
    simp only [processLoop, Except.ok.injEq] at h
    exact ⟨[], 0, by subst h; simp, by simp, by simp⟩
  | succ m ih =>
    simp only [processLoop, bind_ok_iff] at h
    obtain ⟨r, -, h⟩ := h
    obtain ⟨recs, errs, rfl, hlen, herr⟩ := ih h
    have hone := errorsOf_le r.cls
    rw [acceptFrame_eq]
    by_cases hs : skipsRecord s.hw.frame0Policy d k r
    · exact ⟨recs, errorsOf r.cls + errs, by simp [hs, Nat.add_assoc], by omega, by omega⟩
    · exact ⟨r :: recs, errorsOf r.cls + errs, by simp [hs, Nat.add_assoc], by simp; omega, by omega⟩

/-- What PROCESS can answer: its records and its normalised count, with the bounds of 10_state.md R15 and R16. -/
theorem process_ok {d : Bool} {s t : State} (h : process d s = .ok t) :
    ∃ mf recs errs, maxFrames s = .ok mf ∧ recs.length ≤ mf ∧ errs ≤ mf ∧
      t = { s with packets := recs, berCounter := errs * 100 / (mf + 1) } := by
  simp only [process, bind_ok_iff] at h
  obtain ⟨mf, hmf, u, hu, h⟩ := h
  obtain ⟨recs, errs, rfl, hlen, herr⟩ := processLoop_ok hu
  refine ⟨mf, recs, errs, hmf, hlen, herr, ?_⟩
  simp only [pure, Except.pure, Except.ok.injEq] at h
  subst h
  simp [State.finishProcess, State.beginProcess]

/-- MaxFrames never exceeds the whole frames in N words (43_frame_iterator.md R83). -/
theorem maxFrames_le {s : State} {mf : Nat} (h : maxFrames s = .ok mf) : mf ≤ baseFrames s := by
  unfold maxFrames at h
  split at h
  · cases h; exact Nat.le_refl _
  · split at h
    · cases h
    · cases h; exact Nat.sub_le _ _

/-- Everything PROCESS can answer once the gate is passed. -/
theorem processBody_next {d : Bool} {s t : State} (h : processBody d s = .next t) :
    (∃ mf recs errs, maxFrames s = .ok mf ∧ recs.length ≤ mf ∧ errs ≤ mf ∧
      t = State.answer { s with packets := recs, berCounter := errs * 100 / (mf + 1) } .ok .noResult) ∨
    (∃ fi, process d s = .error fi ∧ t = s.abandonProcess.raiseBounds fi) := by
  unfold processBody at h
  split at h
  · next u hu =>
    cases h
    obtain ⟨mf, recs, errs, h1, h2, h3, rfl⟩ := process_ok hu
    exact .inl ⟨mf, recs, errs, h1, h2, h3, rfl⟩
  · next fi hs => cases h; exact .inr ⟨_, hs, rfl⟩

/-- A frame row answers its record and writes nothing. -/
theorem frameStep_eq (cls : FrameClass) (payload : Payload) (s : State) :
    frameStep cls payload s =
      .next { s with reply := some ⟨.ok, .frame ⟨cls, payload⟩ (controlKind ⟨cls, payload⟩) (errorsOf cls)⟩ } := rfl

/-- The BTF of a control payload is its top byte (30_encoding.md R42). -/
theorem btfOf_append (b : Byte) (x : BitVec 56) : btfOf (b ++ x) = b := by
  refine BitVec.eq_of_getLsbD_eq fun i hi => ?_
  have h : (b ++ x).getLsbD (56 + i) = b.getLsbD i := by
    rw [BitVec.getLsbD_append, if_neg (by omega), Nat.add_sub_cancel_left]
  rw [btfOf, BitVec.getLsbD_extractLsb']
  simpa [hi] using h

/-- A control row answers its record with the name of its BTF and writes nothing. -/
theorem controlStep_eq (b : Byte) (x : BitVec 56) (s : State) :
    controlStep b x s = .next { s with reply := some ⟨.ok, .frame ⟨.control, b ++ x⟩ (some (btfName b)) 0⟩ } := by
  rw [controlStep, frameStep_eq]
  simp [controlKind, btfOf_append, errorsOf]

/-! ### The search (42_alignment.md R70) -/

/-- The search answers the first candidate that is accepted (R76). -/
theorem searchFrom_some {s : State} {m c a : Nat} (h : searchFrom s m c = .ok (some a)) :
    c ≤ a ∧ a < c + m ∧ tryCandidate s a = .ok true ∧ ∀ b, c ≤ b → b < a → tryCandidate s b = .ok false := by
  induction m generalizing c with
  | zero => cases h
  | succ m ih =>
    simp only [searchFrom, bind_ok_iff] at h
    obtain ⟨ok, hok, h⟩ := h
    cases ok with
    | true =>
      simp only [if_true, pure, Except.pure, Except.ok.injEq, Option.some.injEq] at h
      subst h
      exact ⟨Nat.le_refl _, by omega, hok, fun b h1 h2 => absurd h1 (by omega)⟩
    | false =>
      obtain ⟨h1, h2, h3, h4⟩ := ih (by simpa using h)
      refine ⟨by omega, by omega, h3, fun b hb hba => ?_⟩
      rcases Nat.eq_or_lt_of_le hb with rfl | hlt
      · exact hok
      · exact h4 b hlt hba

/-- The search fails when every candidate is rejected (R75). -/
theorem searchFrom_none {s : State} {m c : Nat} (h : searchFrom s m c = .ok none) :
    ∀ b, c ≤ b → b < c + m → tryCandidate s b = .ok false := by
  induction m generalizing c with
  | zero => intro b h1 h2; omega
  | succ m ih =>
    simp only [searchFrom, bind_ok_iff] at h
    obtain ⟨ok, hok, h⟩ := h
    cases ok with
    | true => simp [pure, Except.pure] at h
    | false =>
      intro b hb hlt
      rcases Nat.eq_or_lt_of_le hb with rfl | hlt'
      · exact hok
      · exact ih (by simpa using h) b hlt' (by omega)

/-- Everything SYNCHRONIZE can answer once the gate is passed. -/
theorem synchronizeBody_next {s t : State} (h : synchronizeBody s = .next t) :
    (∃ c, search s = .ok (some c) ∧ t = (s.acceptSlip c).answer .ok (.flag true)) ∨
    (search s = .ok none ∧ t = s.answer .ok (.flag false)) ∨
    (∃ fi, search s = .error fi ∧ t = s.raiseBounds fi) := by
  unfold synchronizeBody at h
  split at h
  · next c hs => cases h; exact .inl ⟨c, hs, rfl⟩
  · next hs => cases h; exact .inr (.inl ⟨hs, rfl⟩)
  · next fi hs => cases h; exact .inr (.inr ⟨fi, hs, rfl⟩)

end Sys2Proof.Machine
end

