-- ==== Sys2Proof/Laws/PerInstr.lean ====
section
/-! SUPPORT. Statements made per instruction. Family RoundTrip: decoding the encoding of a well-formed instruction gives it
back. -/

namespace Sys2Proof.Laws.RoundTrip

/-- Decode and encode agree on an instruction. -/
def Statement (i : Instr) : Prop := i.wf = true → decode (encode i) = .ok i

/-! ### The parts of a frame word -/

theorem append_high {v w : Nat} (x : BitVec v) (y : BitVec w) : (x ++ y).extractLsb' w v = x := by
  apply BitVec.eq_of_getLsbD_eq
  intro i hi
  simp [BitVec.getLsbD_append, hi]

theorem append_low {v w : Nat} (x : BitVec v) (y : BitVec w) : (x ++ y).extractLsb' 0 w = y := by
  apply BitVec.eq_of_getLsbD_eq
  intro i hi
  simp [BitVec.getLsbD_append, hi]

theorem frame_sync (sync : BitVec 2) (d : Payload) : (frameOf sync d).extractLsb' 64 2 = sync := append_high sync d

theorem frame_payload (sync : BitVec 2) (d : Payload) : (frameOf sync d).extractLsb' 0 64 = d := append_low sync d

/-- A control frame decodes to the control row of its payload. -/
theorem decode_controlFrame (b : Byte) (x : BitVec 56) : decodeFrame (controlFrame b x) = decodeControl (b ++ x) := by
  simp [decodeFrame, controlFrame, frame_sync, frame_payload]

/-- The control row of a payload, by its BTF. -/
theorem decodeControl_append (b : Byte) (x : BitVec 56) : decodeControl (b ++ x) = controlRow (btfName b) b x := by
  unfold decodeControl
  rw [append_high b x, append_low b x]

/-- A named BTF's value has that name (30_encoding.md R42). -/
theorem btfName_btfCode (n : BtfName) : btfName (btfCode n) = n := by
  cases n <;> rfl

theorem setWidth_back_32 (x : Word) : ((x.setWidth 64).setWidth 32 : Word) = x := by
  apply BitVec.eq_of_toNat_eq
  simp

theorem setWidth_back_8 (x : Byte) : ((x.setWidth 64).setWidth 8 : Byte) = x := by
  apply BitVec.eq_of_toNat_eq
  simp

theorem setWidth_lt_32 (x : Word) : (x.setWidth 64).toNat < 2 ^ 32 := by
  simp
  omega

theorem setWidth_lt_8 (x : Byte) : (x.setWidth 64).toNat < 2 ^ 8 := by
  simp
  omega

/-! ### The commands -/

theorem construct (p c : Bool) (buf0 : Handle) (size : Word) (pct : Byte) (ss : Word) :
    Statement (.construct p c buf0 size pct ss) := by
  intro _
  have h1 : isReserved (constructWord p c) = false := by cases p <;> cases c <;> rfl
  have h2 : (opcodeOf (constructWord p c)).toNat = 1 := by cases p <;> cases c <;> rfl
  have h3 : (constructWord p c).getLsbD 1 = p := by cases p <;> cases c <;> rfl
  have h4 : (constructWord p c).getLsbD 0 = c := by cases p <;> cases c <;> rfl
  simp only [encode, commandRequest, decode, decodeCommand, h1, h2, h3, h4, setWidth_back_32, setWidth_lt_32,
    if_true, Bool.false_eq_true, if_false]

theorem setBuffer (buf1 : Handle) (size : Word) : Statement (.setBuffer buf1 size) := by
  intro _
  have h1 : isReserved 0x20 = false := rfl
  have h2 : (opcodeOf 0x20).toNat = 2 := rfl
  simp only [encode, commandRequest, decode, decodeCommand, h1, h2, setWidth_back_32, setWidth_lt_32,
    if_true, Bool.false_eq_true, if_false]

theorem forceBitslip (s : Byte) : Statement (.forceBitslip s) := by
  intro _
  have h1 : isReserved 0x30 = false := rfl
  have h2 : (opcodeOf 0x30).toNat = 3 := rfl
  simp only [encode, commandRequest, decode, decodeCommand, h1, h2, setWidth_back_8, setWidth_lt_8,
    if_true, Bool.false_eq_true, if_false]

theorem synchronize : Statement .synchronize := fun _ => rfl

theorem isSynchronized : Statement .isSynchronized := fun _ => rfl

theorem getBitslip : Statement .getBitslip := fun _ => rfl

theorem process (d : Bool) : Statement (.process d) := fun _ => by cases d <;> rfl

theorem getPacketBuffer : Statement .getPacketBuffer := fun _ => rfl

theorem getBer : Statement .getBer := fun _ => rfl

theorem decodeEvent (d : Payload) : Statement (.decodeEvent d) := fun _ => rfl

theorem decodeStatistics (d1 d2 : Payload) : Statement (.decodeStatistics d1 d2) := fun _ => rfl

theorem decodeExtension (d : Payload) : Statement (.decodeExtension d) := fun _ => rfl

theorem reserved (cmd : Byte) : Statement (.reserved cmd) := by
  intro h
  have h' : isReserved cmd = true := h
  simp only [encode, commandRequest, decode, decodeCommand, h', if_true]

/-! ### The frame rows -/

theorem data (d : Payload) : Statement (.data d) := by
  intro _
  simp [encode, decode, decodeFrame, frame_sync, frame_payload]

theorem ctrlIdle (x : BitVec 56) : Statement (.ctrlIdle x) := by
  intro _
  simp only [encode, decode, decode_controlFrame, decodeControl_append, btfName_btfCode, controlRow]

theorem ctrlNfc (x : BitVec 56) : Statement (.ctrlNfc x) := by
  intro _
  simp only [encode, decode, decode_controlFrame, decodeControl_append, btfName_btfCode, controlRow]

theorem ctrlUfc (x : BitVec 56) : Statement (.ctrlUfc x) := by
  intro _
  simp only [encode, decode, decode_controlFrame, decodeControl_append, btfName_btfCode, controlRow]

theorem ctrlSep (x : BitVec 56) : Statement (.ctrlSep x) := by
  intro _
  simp only [encode, decode, decode_controlFrame, decodeControl_append, btfName_btfCode, controlRow]

theorem ctrlSep7 (x : BitVec 56) : Statement (.ctrlSep7 x) := by
  intro _
  simp only [encode, decode, decode_controlFrame, decodeControl_append, btfName_btfCode, controlRow]

theorem ctrlK0 (x : BitVec 56) : Statement (.ctrlK0 x) := by
  intro _
  simp only [encode, decode, decode_controlFrame, decodeControl_append, btfName_btfCode, controlRow]

theorem ctrlK1 (x : BitVec 56) : Statement (.ctrlK1 x) := by
  intro _
  simp only [encode, decode, decode_controlFrame, decodeControl_append, btfName_btfCode, controlRow]

theorem ctrlK2 (x : BitVec 56) : Statement (.ctrlK2 x) := by
  intro _
  simp only [encode, decode, decode_controlFrame, decodeControl_append, btfName_btfCode, controlRow]

theorem ctrlK3 (x : BitVec 56) : Statement (.ctrlK3 x) := by
  intro _
  simp only [encode, decode, decode_controlFrame, decodeControl_append, btfName_btfCode, controlRow]

theorem ctrlK4 (x : BitVec 56) : Statement (.ctrlK4 x) := by
  intro _
  simp only [encode, decode, decode_controlFrame, decodeControl_append, btfName_btfCode, controlRow]

theorem ctrlK5 (x : BitVec 56) : Statement (.ctrlK5 x) := by
  intro _
  simp only [encode, decode, decode_controlFrame, decodeControl_append, btfName_btfCode, controlRow]

theorem ctrlK6 (x : BitVec 56) : Statement (.ctrlK6 x) := by
  intro _
  simp only [encode, decode, decode_controlFrame, decodeControl_append, btfName_btfCode, controlRow]

theorem ctrlK7 (x : BitVec 56) : Statement (.ctrlK7 x) := by
  intro _
  simp only [encode, decode, decode_controlFrame, decodeControl_append, btfName_btfCode, controlRow]

theorem ctrlK8 (x : BitVec 56) : Statement (.ctrlK8 x) := by
  intro _
  simp only [encode, decode, decode_controlFrame, decodeControl_append, btfName_btfCode, controlRow]

theorem ctrlRes (x : BitVec 56) : Statement (.ctrlRes x) := by
  intro _
  simp only [encode, decode, decode_controlFrame, decodeControl_append, btfName_btfCode, controlRow]

theorem ctrlOther (b : Byte) (x : BitVec 56) : Statement (.ctrlOther b x) := by
  intro h
  have h' : btfName b = .other := by simpa [Instr.wf] using h
  simp only [encode, decode, decode_controlFrame, decodeControl_append, h', controlRow]

theorem error00 (x : Payload) : Statement (.error00 x) := by
  intro _
  simp [encode, decode, decodeFrame, frame_sync, frame_payload]

theorem error11 (x : Payload) : Statement (.error11 x) := by
  intro _
  simp [encode, decode, decodeFrame, frame_sync, frame_payload]

/-! ### The packet rows -/

theorem eventPacket (p : EventPacket) : Statement (.eventPacket p) := by
  intro _
  have h : eventOfBits (eventToBits p) = p := by
    obtain ⟨ch, ty, ts, pw, g, a, b, c, d, e, u⟩ := p
    simp only [eventOfBits, eventToBits, EventPacket.mk.injEq]
    refine ⟨?_, ?_, ?_, ?_, ?_, ?_, ?_, ?_, ?_, ?_, ?_⟩
    case refine_5 => simp only [BitVec.getLsbD_append]; simp
    case refine_6 => simp only [BitVec.getLsbD_append]; simp
    case refine_7 => simp only [BitVec.getLsbD_append]; simp
    case refine_8 => simp only [BitVec.getLsbD_append]; simp
    case refine_9 => simp only [BitVec.getLsbD_append]; simp
    case refine_10 => simp only [BitVec.getLsbD_append]; simp
    all_goals
      apply BitVec.eq_of_getLsbD_eq
      intro i hi
      simp only [BitVec.getLsbD_extractLsb', hi, decide_true, Bool.true_and, BitVec.getLsbD_append]
      simp (disch := omega) only [if_pos, if_neg]
      congr 1
      omega
  simp [encode, decode, h]

theorem extensionPacket (p : ExtensionPacket) : Statement (.extensionPacket p) := by
  intro _
  have h : extensionOfBits (extensionToBits p) = p := by
    obtain ⟨pc, cc, r, u⟩ := p
    simp only [extensionOfBits, extensionToBits, ExtensionPacket.mk.injEq]
    refine ⟨?_, ?_, ?_, ?_⟩
    case refine_3 => simp only [BitVec.getLsbD_append]; simp
    all_goals
      apply BitVec.eq_of_getLsbD_eq
      intro i hi
      simp only [BitVec.getLsbD_extractLsb', hi, decide_true, Bool.true_and, BitVec.getLsbD_append]
      simp (disch := omega) only [if_pos, if_neg]
      congr 1
      omega
  simp [encode, decode, h]

theorem statisticsPacket (p : StatisticsPacket) : Statement (.statisticsPacket p) := by
  intro _
  have h : statisticsOfBits (statisticsToBits p) = p := by
    obtain ⟨f, w, dc, t, e, u⟩ := p
    simp only [statisticsOfBits, statisticsToBits, StatisticsPacket.mk.injEq]
    refine ⟨?_, ?_, ?_, ?_, ?_, ?_⟩
    all_goals
      apply BitVec.eq_of_getLsbD_eq
      intro i hi
      simp only [BitVec.getLsbD_extractLsb', hi, decide_true, Bool.true_and, BitVec.getLsbD_append]
      simp (disch := omega) only [if_pos, if_neg]
      congr 1
      omega
  simp [encode, decode, h]

end Sys2Proof.Laws.RoundTrip
end

