-- ==== Sys2Proof/Machine/Assembler.lean ====
section
/-! DEFINITION. The assembler lines of 30_encoding.md R54, as structured lines (log 21): what each stands for as an
instruction. It is the host's notation and no part of the block. -/

namespace Sys2Proof.Machine

/-- One line of R54; an omitted keyword is `none`. -/
inductive AsmLine where
  | construct (buf : Handle) (size : Word) (pct : Option Byte) (sample : Option Word)
  | setBuffer (buf : Handle) (size : Word)
  | forceBitslip (slip : Byte)
  | synchronize
  | isSynchronized
  | getBitslip
  | processKeep
  | processDiscard
  | getPacketBuffer
  | getBer
  | decodeEvent (d : Payload)
  | decodeStatistics (d1 d2 : Payload)
  | decodeExtension (d : Payload)
  deriving DecidableEq, Repr

/-- The instruction of a line: omitting `pct=` sets cmd[0], omitting `sample=` sets cmd[1] (R54). -/
def assemble : AsmLine → Instr
  | .construct buf size pct sample =>
    .construct sample.isNone pct.isNone buf size (pct.getD 0) (sample.getD 0)
  | .setBuffer buf size => .setBuffer buf size
  | .forceBitslip slip => .forceBitslip slip
  | .synchronize => .synchronize
  | .isSynchronized => .isSynchronized
  | .getBitslip => .getBitslip
  | .processKeep => .process false
  | .processDiscard => .process true
  | .getPacketBuffer => .getPacketBuffer
  | .getBer => .getBer
  | .decodeEvent d => .decodeEvent d
  | .decodeStatistics d1 d2 => .decodeStatistics d1 d2
  | .decodeExtension d => .decodeExtension d

end Sys2Proof.Machine
end

