-- ==== Sys2Proof/Tests/Slice0.lean ====
section
/-! SUPPORT. The model's own tests. Expected results are taken from spec/95_test_vectors.md or written out from the encoding
tables; the witnesses show states and operands that meet the hypotheses of the statements. -/

namespace Sys2Proof.Tests

open Sys2Proof.Machine

/-! ### Helpers -/

/-- Words written from index `i` of region `h` on. -/
def load (h : Handle) : List Word → Nat → Memory → Memory
  | [], _, m => m
  | w :: ws, i, m => load h ws (i + 1) (writeWord m h i w)

/-- A configured state over a buffer of the given words. -/
def overBuf (ws : List Word) : State :=
  { State.reset with configured := true, buf := 7, n := BitVec.ofNat 32 ws.length, mem := load 7 ws 0 [] }

/-- The reply of an outcome. -/
def replyOf : Host.Outcome State Fault Refusal → Option Reply
  | .next t => t.reply
  | _ => none

/-- A test on the next state of an outcome; false of a stop. -/
def nextHas (p : State → Bool) : Host.Outcome State Fault Refusal → Bool
  | .next t => p t
  | _ => false

/-- The buffer of program P1. -/
def p1Words : List Word :=
  [0x4048D159, 0xE26AF37B, 0xD87C20E6, 0x9B5BAFFF, 0xD6B05C41, 0xB5A85B45, 0x2EA71036, 0xF812FA72, 0x845B20E1] ++
  [0xC14ED6A9, 0x856F8977, 0x402FF1FA, 0xB964808C, 0xFFA3AEAA, 0x8FDE7318, 0xAF7D044E, 0xDEB60000]

/-- The buffer of program P2. -/
def p2Words : List Word :=
  [0xAAAAAAAA, 0xFFFFFFFF, 0xFFFFFFFF, 0xE2222222, 0x2219999E, 0xF3C32EEE, 0xEEEB41DC, 0x5301DF0A, 0x44DA5A3F, 0x10000000]

/-- The buffer of program P4. -/
def p4Words : List Word :=
  [0x40000000, 0x00000000, 0x10000000, 0x00000000, 0x04000000, 0x00000000, 0x01000000, 0x00000000, 0x00400000]

/-- The buffer of table 2.1.2. -/
def t212Words : List Word := [0x01234567, 0x89ABCDEF, 0xFEDCBA98, 0x76543210, 0xDEADBEEF]

/-! ### WellFormed: an ill-formed term for each check -/

theorem test_wf_reserved_refuses_command : (Instr.reserved 0x40).wf = false := by decide

theorem test_wf_reserved_accepts_0xD0 : (Instr.reserved 0xD0).wf = true := by decide

theorem test_wf_other_refuses_named : (Instr.ctrlOther 0x78 0).wf = false := by decide

theorem test_wf_other_accepts_unnamed : (Instr.ctrlOther 0x00 0).wf = true := by decide

/-! ### Decoding: words written out from the spec's encodings -/

/-- R52's rows, the operand inputs A = 5, B = 207, C = 50, D = 16. -/
theorem test_decode_construct_00 :
    decode (.command 0b00010000 5 207 50 16) = .ok (.construct false false 5 207 50 16) := rfl

theorem test_decode_construct_11 :
    decode (.command 0b00010011 5 207 50 16) = .ok (.construct true true 5 207 50 16) := rfl

theorem test_decode_set_buffer : decode (.command 0b00100000 5 207 0 0) = .ok (.setBuffer 5 207) := rfl

theorem test_decode_force_bitslip : decode (.command 0b00110000 31 0 0 0) = .ok (.forceBitslip 31) := rfl

theorem test_decode_synchronize : decode (.command 0b01000000 0 0 0 0) = .ok .synchronize := rfl

theorem test_decode_is_synchronized : decode (.command 0b01010000 0 0 0 0) = .ok .isSynchronized := rfl

theorem test_decode_get_bitslip : decode (.command 0b01100000 0 0 0 0) = .ok .getBitslip := rfl

theorem test_decode_process_keep : decode (.command 0b01110000 0 0 0 0) = .ok (.process false) := rfl

theorem test_decode_process_discard : decode (.command 0b01110001 0 0 0 0) = .ok (.process true) := rfl

theorem test_decode_get_packet_buffer : decode (.command 0b10000000 0 0 0 0) = .ok .getPacketBuffer := rfl

theorem test_decode_get_ber : decode (.command 0b10010000 0 0 0 0) = .ok .getBer := rfl

theorem test_decode_decode_event : decode (.command 0b10100000 9 0 0 0) = .ok (.decodeEvent 9) := rfl

theorem test_decode_decode_statistics : decode (.command 0b10110000 9 8 0 0) = .ok (.decodeStatistics 9 8) := rfl

theorem test_decode_decode_extension : decode (.command 0b11000000 9 0 0 0) = .ok (.decodeExtension 9) := rfl

/-- Table 2.6.2: reserved opcodes and reserved modifier bits. -/
theorem test_decode_reserved :
    [0x00, 0xD0, 0xE5, 0xFF, 0x14, 0x72, 0x41].all (fun c : Byte => decide (decodeTableWord 8 c.toNat = some (.reserved c))) =
      true := by decide

/-- R52: FORCE_BITSLIP's operand is 8 bits wide, so 256 cannot be presented. -/
theorem test_decode_operand_too_wide :
    decode (.command 0x30 256 0 0 0) = .error (.operandTooWide .a) ∧
      decode (.command 0x20 0 (2 ^ 32) 0 0) = .error (.operandTooWide .b) := ⟨rfl, rfl⟩

/-- R39, R42, R43: frame words from the opcode table's patterns. -/
theorem test_decode_data : decodeTableWord 72 0x1FFFFFFFFFFFFFFFF = some (.data 0xFFFFFFFFFFFFFFFF) := by decide

theorem test_decode_idle : decodeTableWord 72 0x27800000000000001 = some (.ctrlIdle 1) := by decide

theorem test_decode_nfc : decodeTableWord 72 0x2AA00000000001234 = some (.ctrlNfc 0x1234) := by decide

theorem test_decode_ufc : decodeTableWord 72 0x22D00000000000000 = some (.ctrlUfc 0) := by decide

theorem test_decode_sep : decodeTableWord 72 0x21E00000000ABCDEF = some (.ctrlSep 0xABCDEF) := by decide

theorem test_decode_sep7 : decodeTableWord 72 0x2E100000000000000 = some (.ctrlSep7 0) := by decide

theorem test_decode_k0 : decodeTableWord 72 0x2D200000002470000 = some (.ctrlK0 0x2470000) := by decide

theorem test_decode_k1 : decodeTableWord 72 0x29900000000000000 = some (.ctrlK1 0) := by decide

theorem test_decode_k2 : decodeTableWord 72 0x25500000000000000 = some (.ctrlK2 0) := by decide

theorem test_decode_k3 : decodeTableWord 72 0x2B400000000000000 = some (.ctrlK3 0) := by decide

theorem test_decode_k4 : decodeTableWord 72 0x2CC00000000000000 = some (.ctrlK4 0) := by decide

theorem test_decode_k5 : decodeTableWord 72 0x26600000000000000 = some (.ctrlK5 0) := by decide

theorem test_decode_k6 : decodeTableWord 72 0x23300000000000000 = some (.ctrlK6 0) := by decide

theorem test_decode_k7 : decodeTableWord 72 0x24B00000000000000 = some (.ctrlK7 0) := by decide

theorem test_decode_k8 : decodeTableWord 72 0x28700000000000000 = some (.ctrlK8 0) := by decide

theorem test_decode_res : decodeTableWord 72 0x2FF00000000000000 = some (.ctrlRes 0) := by decide

theorem test_decode_other : decodeTableWord 72 0x20000000000000000 = some (.ctrlOther 0 0) := by decide

theorem test_decode_error00 : decodeTableWord 72 0x00000000000000005 = some (.error00 5) := by decide

theorem test_decode_error11 : decodeTableWord 72 0x30000000000000005 = some (.error11 5) := by decide

/-- S5's payload, fields as the scenario gives them. -/
theorem test_decode_event_packet :
    decodeTableWord 64 0x35555557FFCF0000 =
      some (.eventPacket ⟨3, 1, 0x155555, 0x1FFF, false, false, true, true, true, true, 0⟩) := by decide

/-- Table 2.5.2, first row. -/
theorem test_decode_statistics_packet :
    decodeTableWord 128 0x123456789ABCDEF00FEDCBA987654321 =
      some (.statisticsPacket ⟨0x12345, 0x6789A, 0xBCDEF, 0x00FED, 0xCBA9, 0x87654321⟩) := by decide

/-- Table 2.5.3, first row. -/
theorem test_decode_extension_packet :
    decode (.extension 0x123456789ABCDEF0) = .ok (.extensionPacket ⟨0x091A2B, 0x3C4D5E, false, 0xDEF0⟩) := by decide

/-- R42, R43: fifteen named values, 241 others. -/
theorem test_btf_others : ((List.range 256).filter fun n => btfName (BitVec.ofNat 8 n) == .other).length = 241 := by
  decide +kernel

/-- R54's examples of the assembler. -/
theorem test_assemble_words :
    encode (assemble (.construct 5 207 none none)) = .command 0x13 5 207 0 0 ∧
      encode (assemble (.construct 5 34 (some 90) (some 16))) = .command 0x10 5 34 90 16 ∧
      encode (assemble .processKeep) = .command 0x70 0 0 0 0 ∧
      encode (assemble .processDiscard) = .command 0x71 0 0 0 0 := by decide

/-! ### The extractor, the descrambler, parity -/

/-- S1: shift 31. -/
theorem test_sync_straddles :
    syncRead (overBuf [0x00000001, 0x80000000]) 31 0 = .ok 0b11 ∧
      syncRead (overBuf [0x00000000, 0x80000000]) 31 0 = .ok 0b01 := ⟨rfl, rfl⟩

/-- Table 2.1.2: the three geometries. -/
theorem test_payload_geometries :
    payloadRead (overBuf t212Words) 29 0 = .ok 0xC4D5E6F7FF6E5D4C ∧
      payloadRead (overBuf t212Words) 30 0 = .ok 0x89ABCDEFFEDCBA98 ∧
      payloadRead (overBuf t212Words) 31 0 = .ok 0x13579BDFFDB97530 := ⟨rfl, rfl, rfl⟩

/-- Table 2.1.3: which word a fault names. -/
theorem test_read_bounds :
    payloadRead (overBuf [0x01234567, 0x89ABCDEF, 0xFEDCBA98]) 31 0 = .error (.word 3) ∧
      syncRead (overBuf [0x01234567]) 31 0 = .error (.word 1) ∧
      syncRead (overBuf [0x01234567]) 30 0 = .ok 0b11 := ⟨rfl, rfl, rfl⟩

/-- S4 as corrected, and two rows of table 2.2.1. -/
theorem test_descramble :
    descramble 0 0xFFFFFFFFFFFFFFFF = 0xFFFFFFFFFE00003F ∧
      descramble 0xFFFFFFFFFFFFFFFF 0 = 0x0000000001FFFFC0 ∧
      descramble 0x0123456789ABCDEF 0xFEDCBA9876543210 = 0x791EB4E1C35AF09A := by decide +kernel

/-- Table 2.2.2. -/
theorem test_scramble : scramble 0x0123456789ABCDEF 0 = 0x87C20E79B5FCFFFD := by decide +kernel

/-- S5: parities of the fields. -/
theorem test_parity :
    parity (3 : BitVec 4) = false ∧ parity (1 : BitVec 2) = true ∧ parity (0x155555 : BitVec 22) = true ∧
      parity (0x1FFF : BitVec 14) = true := by decide

/-! ### Commands -/

/-- Table 2.6.1: size 10, pct 90, sample 11 gives 10 and 9. -/
theorem test_construct_clamps :
    nextHas (fun t => t.sampleSize == 10 && t.threshold == 9 && t.configured && !t.fault)
      (exec (.construct false false 7 10 90 11) State.reset) = true := by decide

/-- Table 2.6.1: 0x13 with size 207 gives 64 and 57, also while FAULTED. -/
theorem test_construct_defaults :
    nextHas (fun t => t.sampleSize == 64 && t.threshold == 57 && !t.fault)
      (exec (.construct true true 7 207 0 0) { overBuf [] with fault := true }) = true := by decide

/-- R103's example: bitslip stays 31. -/
theorem test_set_buffer :
    nextHas (fun t => t.n == 5 && t.bitslip == 31 && t.sampleSize == 10)
      (exec (.setBuffer 7 5) { overBuf p2Words with bitslip := 31, sampleSize := 10 }) = true := by decide +kernel

/-- Table 2.6.2: s = 64 is refused. -/
theorem test_force_bitslip_refused :
    replyOf (exec (.forceBitslip 64) (overBuf [])) = some ⟨.refusedOperand, .noResult⟩ := by decide

/-- P2, step 2. -/
theorem test_force_bitslip : nextHas (fun t => t.bitslip == 31 && !t.synced) (exec (.forceBitslip 31) (overBuf [])) = true := by
  decide

/-- P4, step 2: the walk reads frame 5's header in word 10. -/
theorem test_synchronize_faults :
    replyOf (exec .synchronize { overBuf p4Words with sampleSize := 9, threshold := 8 }) =
      some ⟨.boundsViolation, .faultInfo (.word 10)⟩ := by decide +kernel

/-- P4, step 6: accepted right after the prefix. -/
theorem test_synchronize_accepts :
    nextHas (fun t => t.bitslip == 0 && t.synced && t.reply == some ⟨.ok, .flag true⟩)
      (exec .synchronize { overBuf p4Words with sampleSize := 4, threshold := 3 }) = true := by decide +kernel

/-- P3, step 5 and step 9. -/
theorem test_is_synchronized :
    replyOf (exec .isSynchronized (overBuf [])) = some ⟨.ok, .flag false⟩ ∧
      replyOf (exec .isSynchronized { overBuf [] with synced := true }) = some ⟨.ok, .flag true⟩ := by decide

/-- P2, step 3; P5, step 1. -/
theorem test_get_bitslip :
    replyOf (exec .getBitslip { overBuf [] with bitslip := 31 }) = some ⟨.ok, .byte 31⟩ ∧
      replyOf (exec .getBitslip State.reset) = some ⟨.refusedUnconfigured, .noResult⟩ := by decide

/-- P2, step 5. -/
theorem test_process_discard :
    nextHas (fun t => t.packets == [⟨.error, 0x1111111111111111⟩] && t.berCounter == 25)
      (exec (.process true) { overBuf p2Words with bitslip := 31 }) = true := by decide +kernel

/-- P2, step 8. -/
theorem test_process_keep :
    nextHas (fun t => t.packets == [⟨.error, 0x1111111111111111⟩, ⟨.control, 0x1E00000000ABCDEF⟩] && t.berCounter == 25)
      (exec (.process false) { overBuf p2Words with bitslip := 31 }) = true := by decide +kernel

/-- P5, step 4. -/
theorem test_process_underflow :
    replyOf (exec (.process false) { overBuf [0x40000000, 0] with bitslip := 1 }) =
      some ⟨.boundsViolation, .faultInfo .underflow⟩ := by rfl

/-- P2, step 6: the type code of an error record is 00. -/
theorem test_get_packet_buffer :
    replyOf (exec .getPacketBuffer { overBuf [] with packets := [⟨.error, 0x1111111111111111⟩] }) =
      some ⟨.ok, .records 1 [(0b00, 0x1111111111111111)]⟩ := by decide

/-- P2, step 7; P4's refusal while FAULTED. -/
theorem test_get_ber :
    replyOf (exec .getBer { overBuf [] with berCounter := 25 }) = some ⟨.ok, .number 25⟩ ∧
      replyOf (exec .getBer { overBuf [] with fault := true }) = some ⟨.refusedFaulted, .noResult⟩ := by decide

/-- Table 2.5.1, the row 58ABCDE48D1F0000. -/
theorem test_decode_event :
    decodeEventPayload 0x58ABCDE48D1F0000 =
      ⟨5, false, 2, true, 0x0ABCDE, true, 0x1234, true, false, true, true, true, true, true, false⟩ := by decide +kernel

/-- Table 2.5.1, the row of all ones. -/
theorem test_decode_event_ones :
    decodeEventPayload 0xFFFFFFFFFFFFFFFF =
      ⟨15, false, 3, false, 0x3FFFFF, false, 0x3FFF, false, true, true, true, true, true, true, false⟩ := by decide +kernel

/-- Table 2.5.2, last row. -/
theorem test_decode_statistics :
    replyOf (exec (.decodeStatistics 0xD200000002470000 0xAA00000000001234) State.reset) =
      some ⟨.ok, .statistics ⟨0xD2000, 0x00002, 0x47000, 0x0AA00, 0⟩⟩ := by decide

/-- Table 2.5.3, third row. -/
theorem test_decode_extension :
    replyOf (exec (.decodeExtension 0xD200000002470000) State.reset) =
      some ⟨.ok, .extension ⟨0x690000, 0x000123, true⟩⟩ := by decide

/-- P5, step 7: the encoding is looked at before FAULTED. -/
theorem test_reserved :
    replyOf (step (State.withFetchWord { overBuf [] with fault := true } 8 0xD0)) = some ⟨.refusedReserved, .noResult⟩ := by
  decide

/-! ### Frame rows -/

/-- Table 2.4.3: a data frame's record, and nothing written outside PROCESS. -/
theorem test_data_frame :
    nextHas (fun t => t.packets == [] && t.reply == some ⟨.ok, .frame ⟨.data, 5⟩ none 0⟩) (exec (.data 5) (overBuf [])) =
      true := by decide

/-- P1: frame 7 is an nfc frame. -/
theorem test_nfc_kind :
    replyOf (exec (.ctrlNfc 0x1234) (overBuf [])) = some ⟨.ok, .frame ⟨.control, 0xAA00000000001234⟩ (some .nfc) 0⟩ := by
  decide

/-- Table 2.4.3: an error frame is counted, by PROCESS; a row alone leaves GET_BER as it was. -/
theorem test_error_frame :
    nextHas (fun t => t.berCounter == 0 && t.packets == [] && t.reply == some ⟨.ok, .frame ⟨.error, 9⟩ none 1⟩)
      (exec (.error11 9) (overBuf [])) = true ∧
      replyOf (exec (.error00 9) (overBuf [])) = some ⟨.ok, .frame ⟨.error, 9⟩ none 1⟩ := by decide

/-- Table 2.4.3: frame 0 under DISCARD leaves no record, a control frame under discard_control leaves none, an error frame is
counted and kept. -/
theorem test_loop_body :
    (acceptFrame true 0 ⟨.error, 5⟩ (overBuf [])).packets = [] ∧ (acceptFrame true 0 ⟨.error, 5⟩ (overBuf [])).berCounter = 1 ∧
      (acceptFrame true 2 ⟨.control, 6⟩ (overBuf [])).packets = [] ∧
      (acceptFrame false 2 ⟨.control, 6⟩ (overBuf [])).packets = [⟨.control, 6⟩] ∧
      (acceptFrame true 1 ⟨.error, 9⟩ (overBuf [])).packets = [⟨.error, 9⟩] := by decide

/-- Table 2.4.3 through the rows: headers 00, 01, 10, 11 under discard_control give two errors and two records. -/
theorem test_take_frames :
    (takeFrames true 0 [frameOf 0b00 5, frameOf 0b01 6, frameOf 0b10 7, frameOf 0b11 8] (overBuf [])).packets =
        [⟨.data, 6⟩, ⟨.error, 8⟩] ∧
      (takeFrames true 0 [frameOf 0b00 5, frameOf 0b01 6, frameOf 0b10 7, frameOf 0b11 8] (overBuf [])).berCounter = 2 := by
  decide

/-- EMIT_RAW (R82) pushes frame 0. -/
theorem test_emit_raw :
    (acceptFrame true 0 ⟨.data, 5⟩ { overBuf [] with hw := ⟨100, .emitRaw⟩ }).packets = [⟨.data, 5⟩] := by decide

/-- P1: frame 3 is idle (R81's example). -/
theorem test_next_frame :
    (match nextFrame (overBuf p1Words) 3 with | .ok r => r == ⟨.control, 0x7800000000000000⟩ | .error _ => false) = true := by
  decide +kernel

/-! ### Memory and the step -/

/-- Writing what an unlisted byte reads as lists nothing; rewriting keeps one entry. -/
theorem test_memory_canonical :
    writeByte (writeByte [] 3 5) 3 0 = [] ∧ writeByte (writeByte [(9, 1)] 3 5) 3 6 = [(3, 6), (9, 1)] := by decide

/-- A host write, then a read of that word by the command that follows. -/
theorem test_host_store :
    nextHas (fun t => readWord t.mem 7 1 == 0x89ABCDEF)
      (step { overBuf [1, 2] with inbox := [.store 7 1 0x89ABCDEF] }) = true := by decide +kernel

/-- No buffer has a word 2^32. -/
theorem test_host_store_outside :
    step { overBuf [] with inbox := [.store 7 (2 ^ 32) 1] } = .fault (.noSuchWord (2 ^ 32)) := rfl

/-- The first instruction after reset: CONSTRUCT with operands 0. -/
theorem test_first_instruction :
    nextHas (fun t => t.configured) (step (State.reset.withFetchWord 8 0x10)) = true := by decide

/-! ### Witnesses: states and operands that meet the hypotheses of the statements -/

/-- Eleven words that hold five frames of header 01. -/
def five : State := { overBuf (p4Words ++ [0, 0]) with sampleSize := 5, threshold := 5 }

theorem witness_DecodeEncodeAgree :
    (Instr.ctrlOther 0xFE 1).wf = true ∧ (Instr.reserved 0xFF).wf = true ∧ decode (.frame 0) = .ok (.error00 0) := by decide

theorem witness_KnownWordsDecode : (0xFFFFFFFF : BitVec 64).toNat < 2 ^ 32 ∧ (0xFF : BitVec 64).toNat < 2 ^ 8 := by decide

/-- R52: an operand that a command does not name is ignored, whatever its width. -/
theorem test_decode_ignores_unnamed :
    decode (.command 0x40 256 (2 ^ 32) 1 1) = .ok .synchronize ∧ decode (.command 0x30 31 (2 ^ 63) 0 0) = .ok (.forceBitslip 31) ∧
      decode (.command 0xB0 256 (2 ^ 32) 0 0) = .ok (.decodeStatistics 256 (2 ^ 32)) := ⟨rfl, rfl, rfl⟩

theorem witness_FrameWordsDecode :
    (0xFE#8 : Byte) ∉ [0x78#8, 0xAA#8, 0x2D#8, 0x1E#8, 0xE1#8, 0xD2#8, 0x99#8, 0x55#8, 0xB4#8, 0xCC#8, 0x66#8, 0x33#8, 0x4B#8,
      0x87#8, 0xFF#8] := by decide

theorem witness_StepRunsDecodedInstruction :
    (State.reset.withFetchWord 8 0x90).inbox = [.present (.command 0x90 0 0 0 0)] ∧
      decode (.command 0x90 0 0 0 0) = .ok .getBer := by decide

theorem witness_StepStopsOnlyOnTheHost :
    step { overBuf [] with inbox := [.store 7 (2 ^ 32) 1] } = .fault (.noSuchWord (2 ^ 32)) ∧
      step { overBuf [] with inbox := [.present (.command 0x30 256 0 0 0)] } = .refused (.undecodable (.operandTooWide .a)) :=
  ⟨rfl, rfl⟩

theorem five_mem : Memory.wf five.mem = true := by decide +kernel

/-- The host's script is no part of the invariant. -/
theorem inv_any_script (s : State) (script : List HostMove) (h : Inv s) : Inv { s with inbox := script } :=
  ⟨h.memWf, h.faultConfigured, h.sizeBound, h.thresholdBound, h.berBound, h.packetBound⟩

theorem five_base_inv : Inv five :=
  ⟨five_mem, nofun, fun _ => by decide, fun _ => by decide, fun _ => by decide, fun _ => by decide⟩

theorem five_inv (script : List HostMove) : Inv { five with inbox := script } := inv_any_script five script five_base_inv

theorem witness_StepKeepsInvariant :
    Inv { five with inbox := [.store 7 0 1] } ∧ (∃ t, step { five with inbox := [.store 7 0 1] } = .next t) :=
  ⟨five_inv _, _, rfl⟩

theorem witness_PowerOnClears : ({ five with inbox := [.powerOn] } : State).inbox = .powerOn :: [] := rfl

theorem witness_ConfiguredLifecycle :
    (0xFFFFFFFF : Word).toNat ≤ State.reset.hw.maxWords ∧
      (∃ t, exec .getBer (overBuf []) = .next t ∧ (overBuf []).configured = true) ∧
      gatedCommand .getBer = true ∧ State.reset.configured = false := by
  refine ⟨by decide, ⟨_, rfl, rfl⟩, rfl, rfl⟩

theorem witness_RefusalTable_gates :
    gatedCommand .synchronize = true ∧ ({ overBuf [] with fault := true } : State).fault = true ∧
      State.reset.fault = false ∧ State.reset.configured = false := ⟨rfl, rfl, rfl, rfl⟩

theorem witness_RefusalTable_words :
    ReservedWord 0x00 ∧ ReservedWord 0x14 ∧ ReservedWord 0x72 ∧ ReservedWord 0x41 ∧ ¬ ReservedWord 0x13 ∧ ¬ ReservedWord 0x71 := by
  refine ⟨?_, ?_, ?_, ?_, ?_, ?_⟩ <;> unfold ReservedWord <;> decide

theorem witness_RefusalTable_operands :
    ({ overBuf [] with hw := ⟨9, .discard⟩ } : State).hw.maxWords < (10 : Word).toNat ∧
      Ready { overBuf [] with hw := ⟨9, .discard⟩ } ∧ 64 ≤ (64 : Byte).toNat := ⟨by decide, ⟨rfl, rfl⟩, by decide⟩

/-- A buffer of zeros, in which every header is invalid, for the AlignmentFailure clause. -/
theorem witness_StatusCodes_alignment_failure :
    Ready { five with mem := [] } ∧ (match search { five with mem := [] } with | .ok none => true | _ => false) = true :=
  ⟨⟨rfl, rfl⟩, by decide +kernel⟩

theorem witness_StatusCodes :
    replyOf (exec .getBer State.reset) = some ⟨.refusedUnconfigured, .noResult⟩ ∧
      replyOf (exec (.process true) { overBuf [] with bitslip := 63 }) = some ⟨.boundsViolation, .faultInfo .underflow⟩ :=
  ⟨rfl, rfl⟩

theorem witness_FaultedLeftOnlyByReset :
    (∃ t, exec .getBer { overBuf [] with fault := true } = .next t) ∧
      (∃ t, exec (.construct true true 7 0 0 0) { overBuf [] with fault := true } = .next t ∧ t.fault = false) ∧
      (∃ t, step { overBuf [] with fault := true, inbox := [.powerOn] } = .next t ∧ t.fault = false) :=
  ⟨⟨_, rfl⟩, ⟨_, rfl, rfl⟩, ⟨_, rfl, rfl⟩⟩

theorem witness_FaultCauses :
    (∃ t, exec .synchronize (overBuf []) = .next t ∧ (overBuf []).fault = false ∧ t.fault = true) ∧
      (∃ t, exec (.process true) { overBuf [0, 0] with bitslip := 1 } = .next t ∧ t.fault = true) :=
  ⟨⟨_, rfl, rfl, rfl⟩, ⟨_, rfl, rfl⟩⟩

theorem witness_ConstructCompletes : (0xFFFFFFFF : Word).toNat ≤ State.reset.hw.maxWords := by decide

theorem witness_ConstructForgets :
    State.reset.hw = five.hw ∧ (10 : Word).toNat ≤ State.reset.hw.maxWords ∧
      (∃ t, exec (.construct false false 7 10 90 9) State.reset = .next t) ∧
      (∃ t, exec (.construct false false 7 10 90 9) five = .next t) := ⟨rfl, by decide, ⟨_, rfl⟩, ⟨_, rfl⟩⟩

theorem witness_PctClamped : 100 < (101 : Byte).toNat ∧ (10 : Word).toNat ≤ State.reset.hw.maxWords := by decide

theorem witness_SampleClamped :
    (64 : Word).toNat ≤ State.reset.hw.maxWords ∧ (64 : Word).toNat ≤ 64 ∧ 64 < (65 : Word).toNat := by decide

theorem witness_SetBufferCompletes : Ready five ∧ (0xFFFFFFFF : Word).toNat ≤ five.hw.maxWords := ⟨⟨rfl, rfl⟩, by decide⟩

theorem witness_ForceBitslipCompletes : Ready five ∧ (63 : Byte).toNat < 64 := ⟨⟨rfl, rfl⟩, by decide⟩

theorem witness_ReadoutsComplete : Ready five := ⟨rfl, rfl⟩

theorem witness_RegisterWriters :
    (∃ t, exec .getBer five = .next t) ∧ isConstruct .getBer = false ∧ isSetBuffer .getBer = false ∧
      isForceBitslip .getBer = false ∧ Instr.getBer ≠ .synchronize ∧ isProcess .getBer = false :=
  ⟨⟨_, rfl⟩, rfl, rfl, rfl, by decide, rfl⟩

theorem witness_BufferNeverWritten : ∃ t, exec (.data 1) five = .next t := ⟨_, rfl⟩

theorem witness_SyncedStays :
    (∃ t, exec .synchronize { overBuf [] with synced := true } = .next t) ∧ isConstruct .synchronize = false := ⟨⟨_, rfl⟩, rfl⟩

theorem witness_MemReadBounds : 10 < five.n.toNat ∧ five.n.toNat ≤ 11 := by decide

theorem witness_HostWriteSeen :
    ({ five with inbox := [.store 7 (2 ^ 32 - 1) 1] } : State).inbox = .store 7 (2 ^ 32 - 1) 1 :: [] ∧
      Memory.wf ({ five with inbox := [.store 7 (2 ^ 32 - 1) 1] } : State).mem = true ∧ 2 ^ 32 - 1 < 2 ^ 32 ∧
      ¬ ((7 : Handle) = 7 ∧ 0 = 2 ^ 32 - 1) := ⟨rfl, (five_inv _).memWf, by decide, by decide⟩

theorem witness_SyncReadAgrees : 30 + 66 * 0 + 2 ≤ 32 * (overBuf [5]).n.toNat := by decide

theorem witness_WordReadsAgree : 30 + 66 * 0 + 66 ≤ 32 * (overBuf [5, 6, 7]).n.toNat := by decide

theorem witness_ReadBounds :
    syncRead (overBuf [5]) 31 0 = .error (.word 1) ∧ payloadRead (overBuf [5, 6, 7]) 31 0 = .error (.word 3) := ⟨rfl, rfl⟩

/-- One state whose search accepts, one whose search fails. -/
theorem witness_SynchronizeFirstFit :
    Ready five ∧ SearchFits five ∧ firstAccepted five = some 0 ∧
      Ready { five with mem := [] } ∧ SearchFits { five with mem := [] } ∧ firstAccepted { five with mem := [] } = none :=
  ⟨⟨rfl, rfl⟩, by unfold SearchFits; decide, by decide +kernel, ⟨rfl, rfl⟩, by unfold SearchFits; decide, by decide +kernel⟩

theorem witness_SynchronizeOutcomes : Ready five := ⟨rfl, rfl⟩

theorem witness_SmallSample :
    five.threshold.toNat ≤ five.sampleSize.toNat ∧ five.sampleSize.toNat ≤ 5 ∧
      ({ five with threshold := 0, sampleSize := 64 } : State).threshold.toNat = 0 := by decide

theorem witness_ProcessNeverReadsPastBuffer :
    maxFrames five = .ok 5 ∧ 4 < 5 ∧ maxFrames { five with bitslip := 63 } = .ok 4 ∧ ({ five with bitslip := 63 } : State).bitslip ≠ 0 :=
  ⟨rfl, by decide, rfl, by decide⟩

theorem witness_ProcessMatchesStream :
    Ready five ∧ FramesFit five ∧ Ready { five with bitslip := 63 } ∧ FramesFit { five with bitslip := 63 } :=
  ⟨⟨rfl, rfl⟩, .inl rfl, ⟨rfl, rfl⟩, .inr (by decide)⟩

theorem witness_ProcessUnderflow :
    Ready { overBuf [0, 0] with bitslip := 63 } ∧ ({ overBuf [0, 0] with bitslip := 63 } : State).bitslip ≠ 0 ∧
      ({ overBuf [0, 0] with bitslip := 63 } : State).n.toNat ≤ 2 := ⟨⟨rfl, rfl⟩, by decide, by decide⟩

theorem witness_ProcessBounds :
    Ready (overBuf [0, 0, 0]) ∧ ∃ t, exec (.process false) (overBuf [0, 0, 0]) = .next t ∧ t.fault = false :=
  ⟨⟨rfl, rfl⟩, _, rfl, rfl⟩

theorem witness_ProcessRunsFrameRows : ∃ u, processLoop true 1 0 (overBuf [0, 0, 0]) = .ok u := ⟨_, rfl⟩

theorem witness_ControlFramesComplete : btfName 0x00 = .other := by decide

/-- S5's event packet. -/
theorem witness_ParityBitFlipDetected :
    (false = parity (3 : BitVec 4)) ∧ (true = parity (1 : BitVec 2)) ∧ (true = parity (0x155555 : BitVec 22)) ∧
      (true = parity (0x1FFF : BitVec 14)) ∧ (true = (((false ^^ true) ^^ true) ^^ true)) ∧ 16 ≤ 20 := by decide

/-- Two states that differ in elements no host can see before CONSTRUCT. -/
theorem witness_UnspecifiedUnobservable :
    Indistinguishable State.reset { State.reset with bitslip := 5, berCounter := 7, packets := [⟨.data, 1⟩], threshold := 3 } where
  hw := rfl
  configured := rfl
  fault := rfl
  mem := rfl
  inbox := rfl
  reply := rfl
  registers := by intro h; cases h
  outputs := by rintro ⟨h, -⟩; cases h
  info := by intro h; cases h

/-- Writing a word of another region keeps the attached buffer. -/
theorem same_buffer_other_region (s : State) (h : Handle) (w : Word) (hne : h ≠ s.buf) :
    SameBuffer s { s with mem := writeWord s.mem h 0 w } :=
  ⟨rfl, fun i hi => readWord_writeWord_other _ _ (by decide) (by have := s.n.isLt; omega) fun e => hne e.1⟩

/-- Two states that differ in another region's words. -/
theorem witness_OnlyAttachedBufferRead :
    SameBuffer five { five with mem := writeWord five.mem 8 0 1 } ∧ ∃ t, exec .getBer five = .next t :=
  ⟨same_buffer_other_region five 8 1 (by decide), _, rfl⟩

theorem witness_ReadoutsBounded : Inv five ∧ Ready five := ⟨five_base_inv, rfl, rfl⟩

end Sys2Proof.Tests
end

section
/-! PROOF. What exec can answer, said once by kind of instruction (60_exceptions.md R122, R124): CONSTRUCT, a gated command,
and the rest, which only reply. From it, the life of `configured` (10_state.md R17). -/

namespace Sys2Proof.Machine

/-! ### CONSTRUCT (45_receiver_commands.md R102) -/

theorem exec_construct_accepted {p c : Bool} {h : Handle} {z : Word} {pct : Byte} {ss : Word} {s : State}
    (hz : z.toNat ≤ s.hw.maxWords) :
    exec (.construct p c h z pct ss) s =
      .next ((s.constructed h z (selectPct c pct) (selectSample p ss)).answer .ok .noResult) :=
  if_neg (Nat.not_lt.mpr hz)

theorem exec_construct_refused {p c : Bool} {h : Handle} {z : Word} {pct : Byte} {ss : Word} {s : State}
    (hz : s.hw.maxWords < z.toNat) :
    exec (.construct p c h z pct ss) s = .next (s.refuse .refusedOperand) :=
  if_pos hz

/-! ### The gated commands (45_receiver_commands.md R101) -/

/-- What a gated command runs once the gate is passed; any other instruction has no gate, and runs whole. -/
def commandBody : Instr → State → Host.Outcome State Fault Refusal
  | .setBuffer h z => setBufferBody h z
  | .forceBitslip slip => forceBitslipBody slip
  | .synchronize => synchronizeBody
  | .isSynchronized => readoutBody syncedResult
  | .getBitslip => readoutBody bitslipResult
  | .process d => processBody d
  | .getPacketBuffer => readoutBody packetsResult
  | .getBer => readoutBody berResult
  | i => exec i

theorem exec_eq_gated {i : Instr} (hi : gatedCommand i = true) (s : State) : exec i s = gated s (commandBody i) := by
  cases i with
  | setBuffer | forceBitslip | synchronize | isSynchronized | getBitslip | process | getPacketBuffer | getBer => rfl
  | _ => cases hi

theorem setBufferBody_next {h : Handle} {z : Word} {s t : State} (ht : setBufferBody h z s = .next t) :
    (s.hw.maxWords < z.toNat ∧ t = s.refuse .refusedOperand) ∨
    (z.toNat ≤ s.hw.maxWords ∧ t = (s.attach h z).answer .ok .noResult) := by
  unfold setBufferBody at ht
  split at ht
  · next hz => cases ht; exact .inl ⟨hz, rfl⟩
  · next hz => cases ht; exact .inr ⟨Nat.le_of_not_lt hz, rfl⟩

theorem forceBitslipBody_next {slip : Byte} {s t : State} (ht : forceBitslipBody slip s = .next t) :
    (64 ≤ slip.toNat ∧ t = s.refuse .refusedOperand) ∨
    (slip.toNat < 64 ∧ t = (s.setSlip (slip.setWidth 6)).answer .ok .noResult) := by
  unfold forceBitslipBody at ht
  split at ht
  · next hs => cases ht; exact .inl ⟨hs, rfl⟩
  · next hs => cases ht; exact .inr ⟨Nat.lt_of_not_le hs, rfl⟩

theorem commandBody_keeps_configured {i : Instr} {s t : State} (hi : gatedCommand i = true)
    (h : commandBody i s = .next t) : t.configured = s.configured := by
  cases i with
  | setBuffer => obtain ⟨-, rfl⟩ | ⟨-, rfl⟩ := setBufferBody_next h <;> rfl
  | forceBitslip => obtain ⟨-, rfl⟩ | ⟨-, rfl⟩ := forceBitslipBody_next h <;> rfl
  | synchronize => obtain ⟨_, -, rfl⟩ | ⟨-, rfl⟩ | ⟨_, -, rfl⟩ := synchronizeBody_next h <;> rfl
  | process => obtain ⟨_, _, _, -, -, -, rfl⟩ | ⟨_, -, rfl⟩ := processBody_next h <;> rfl
  | isSynchronized | getBitslip | getPacketBuffer | getBer => cases h; rfl
  | _ => cases hi

/-! ### The instructions that only reply -/

/-- The decoders, RESERVED, the frame rows and the packet rows pass no gate and write nothing but the reply. -/
theorem exec_eq_answer {i : Instr} (hc : isConstruct i = false) (hg : gatedCommand i = false) (s : State) :
    ∃ status result, exec i s = .next (s.answer status result) := by
  cases i with
  | construct => cases hc
  | setBuffer | forceBitslip | synchronize | isSynchronized | getBitslip | process | getPacketBuffer | getBer => cases hg
  | _ => exact ⟨_, _, rfl⟩

/-! ### `configured` (10_state.md R17) -/

theorem exec_construct_never_clears_configured {p c : Bool} {h : Handle} {z : Word} {pct : Byte} {ss : Word} {s t : State}
    (hc : s.configured = true) (ht : exec (.construct p c h z pct ss) s = .next t) : t.configured = true := by
  rcases Nat.lt_or_ge s.hw.maxWords z.toNat with hz | hz
  · rw [exec_construct_refused hz] at ht; cases ht; exact hc
  · rw [exec_construct_accepted hz] at ht; cases ht; rfl

/-- CONSTRUCT alone can change `configured`. -/
theorem exec_keeps_configured {i : Instr} {s t : State} (hc : isConstruct i = false) (h : exec i s = .next t) :
    t.configured = s.configured := by
  cases hg : gatedCommand i with
  | true =>
    rw [exec_eq_gated hg] at h
    obtain ⟨-, rfl⟩ | ⟨-, -, rfl⟩ | ⟨-, -, hb⟩ := gated_next h
    · rfl
    · rfl
    · exact commandBody_keeps_configured hg hb
  | false =>
    obtain ⟨status, result, he⟩ := exec_eq_answer hc hg s
    rw [he] at h
    cases h
    rfl

theorem exec_never_clears_configured {i : Instr} {s t : State} (h : exec i s = .next t) (hs : s.configured = true) :
    t.configured = true := by
  cases hc : isConstruct i with
  | true =>
    cases i with
    | construct => exact exec_construct_never_clears_configured hs h
    | _ => cases hc
  | false => rw [exec_keeps_configured hc h, hs]

theorem exec_gated_unconfigured {i : Instr} {s : State} (hi : gatedCommand i = true) (hc : s.configured = false) :
    (s.fault = false ∧ exec i s = .next (s.refuse .refusedUnconfigured)) ∨
    (s.fault = true ∧ exec i s = .next (s.refuse .refusedFaulted)) := by
  rw [exec_eq_gated hi]
  cases hf : s.fault with
  | true => exact .inr ⟨rfl, gated_faulted hf⟩
  | false => exact .inl ⟨rfl, gated_unconfigured hf hc⟩

end Sys2Proof.Machine

open Sys2Proof Sys2Proof.Machine

/-- Settles O11, by the kinds of instruction: CONSTRUCT sets `configured`, a gated command's body keeps it and its gate
refuses while it is false, and every other instruction only replies. -/
theorem configuredLifecycle : Obligations.ConfiguredLifecycle := by
  unfold Obligations.ConfiguredLifecycle
  refine ⟨rfl, ?constructSets, fun _ _ _ => exec_never_clears_configured, ?gateRefuses⟩
  case constructSets => exact fun _ _ _ _ _ _ _ hz => ⟨_, exec_construct_accepted hz, rfl⟩
  case gateRefuses =>
    intro i s hi hc
    obtain ⟨-, he⟩ | ⟨hf, he⟩ := exec_gated_unconfigured hi hc
    · exact ⟨_, he, .inl rfl⟩
    · exact ⟨_, he, .inr ⟨hf, rfl⟩⟩

end

section
/-! PROOF. What MemRead returns and where it stops (20_memory.md R24), in the bits of the stream (00_scope.md R6). -/

namespace Sys2Proof.Machine

/-- Word `i` of the buffer holds the stream bits from `32 * i` on, the first of them highest (00_scope.md R6). -/
theorem streamBit_eq_getLsbD_readWord (s : State) (i : Nat) {j : Nat} (hj : j < 32) :
    streamBit s (32 * i + j) = (readWord s.mem s.buf i).getLsbD (31 - j) := by
  have hdiv : (32 * i + j) / 32 = i := by omega
  have hmod : (32 * i + j) % 32 = j := by omega
  rw [streamBit, hdiv, hmod]

end Sys2Proof.Machine

open Sys2Proof Sys2Proof.Machine

/-- Settles O27, by the two sides of MemRead's bound; a word's bits are the stream's by the definition of StreamBit. -/
theorem memReadBounds : Obligations.MemReadBounds := by
  unfold Obligations.MemReadBounds
  refine fun s i => ⟨fun hi => ⟨memRead_ok hi, ?wordBits⟩, memRead_error⟩
  case wordBits => exact fun j hj => (streamBit_eq_getLsbD_readWord s i hj).symm

end

section
/-! PROOF. The bit extractor's word reads in the terms of the stream (40_bit_extractor.md R57 to R61): for SyncRead and
PayloadRead one equation each, which says when the read answers, that it answers the stream's bits, and else which word it
names. -/

namespace Sys2Proof.Machine

/-! ### Positions (R55 to R57) -/

theorem framePos_eq (slip k : Nat) : framePos slip k = slip + 66 * k := rfl

theorem syncShift_lt (slip k : Nat) : syncShift slip k < 32 := Nat.mod_lt _ (by decide)

theorem framePos_split (slip k : Nat) : framePos slip k = 32 * syncIndex slip k + syncShift slip k :=
  (Nat.div_add_mod _ _).symm

/-- The word with frame `k`'s second sync bit: the last word SyncRead touches (R61) and the first PayloadRead touches. -/
def headerEndIndex (slip k : Nat) : Nat := (framePos slip k + 1) / 32

theorem headerEndIndex_straddle {slip k : Nat} (h : syncShift slip k = 31) :
    headerEndIndex slip k = syncIndex slip k + 1 := by
  have hp := framePos_split slip k
  unfold headerEndIndex
  omega

theorem headerEndIndex_within {slip k : Nat} (h : syncShift slip k ≠ 31) :
    headerEndIndex slip k = syncIndex slip k := by
  have hp := framePos_split slip k
  have hlt := syncShift_lt slip k
  unfold headerEndIndex
  omega

theorem headerEndIndex_eq (slip k : Nat) :
    headerEndIndex slip k = syncIndex slip k + if syncShift slip k = 31 then 1 else 0 := by
  split
  · next h => exact headerEndIndex_straddle h
  · next h => exact headerEndIndex_within h

/-- SyncRead's last word is past the buffer exactly when its last bit is (R61). -/
theorem headerEndIndex_ge_iff (slip k n : Nat) :
    n ≤ headerEndIndex slip k ↔ 32 * n < slip + 66 * k + 2 := by
  rw [headerEndIndex, framePos_eq]
  omega

/-- PayloadRead's last word, two after its first, is past the buffer exactly when its last bit is (R61). -/
theorem payloadEnd_ge_iff (slip k n : Nat) :
    n ≤ headerEndIndex slip k + 2 ↔ 32 * n < slip + 66 * k + 66 := by
  rw [headerEndIndex, framePos_eq]
  omega

/-! ### Consecutive reads (20_memory.md R24) -/

/-- Two consecutive words: both lie inside the buffer, or the fault names the first word at or past N. -/
theorem memRead_bind_two {α : Type} (s : State) (i : Nat) (g : Word → Word → α) :
    (do let w0 ← memRead s i; let w1 ← memRead s (i + 1); return g w0 w1) =
      if i + 1 < s.n.toNat then .ok (g (readWord s.mem s.buf i) (readWord s.mem s.buf (i + 1)))
      else .error (.word (max s.n.toNat i)) := by
  rcases Nat.lt_or_ge i s.n.toNat with h0 | h0
  · rw [memRead_ok h0]
    rcases Nat.lt_or_ge (i + 1) s.n.toNat with h1 | h1
    · rw [memRead_ok h1, if_pos h1]
      rfl
    · rw [memRead_error h1, if_neg (by omega), show max s.n.toNat i = i + 1 by omega]
      rfl
  · rw [memRead_error h0, if_neg (by omega), Nat.max_eq_right h0]
    rfl

/-- Three consecutive words: all lie inside the buffer, or the fault names the first word at or past N. -/
theorem memRead_bind_three {α : Type} (s : State) (i : Nat) (g : Word → Word → Word → α) :
    (do let wa ← memRead s i; let wb ← memRead s (i + 1); let wc ← memRead s (i + 2); return g wa wb wc) =
      if i + 2 < s.n.toNat then
        .ok (g (readWord s.mem s.buf i) (readWord s.mem s.buf (i + 1)) (readWord s.mem s.buf (i + 2)))
      else .error (.word (max s.n.toNat i)) := by
  rcases Nat.lt_or_ge i s.n.toNat with h0 | h0
  · have hmax : max s.n.toNat (i + 1) = max s.n.toNat i := by omega
    rw [memRead_ok h0, ← hmax]
    exact memRead_bind_two s (i + 1) (g (readWord s.mem s.buf i))
  · rw [memRead_error h0, if_neg (by omega), Nat.max_eq_right h0]
    rfl

/-! ### SyncRead (R58) -/

/-- The mask and the two shifts of R58 leave the two bits below offset `sh`, as the low bits of a byte. -/
theorem headerMask_eq (w : Word) {sh : Nat} (hsh : sh ≤ 30) :
    ((w &&& (0xC0000000#32 >>> sh)) >>> (30 - sh)).setWidth 8 =
      (BitVec.ofBool (w.getLsbD (31 - sh)) ++ BitVec.ofBool (w.getLsbD (30 - sh))).setWidth 8 := by
  refine BitVec.eq_of_getLsbD_eq fun j hj => ?_
  have hmask : sh + (30 - sh + j) = 30 + j := by omega
  have hhigh : 31 - sh = 30 - sh + 1 := by omega
  simp only [BitVec.getLsbD_setWidth, BitVec.getLsbD_ushiftRight, BitVec.getLsbD_and, BitVec.getLsbD_append, hmask, hhigh]
  match j with
  | 0 => simp
  | 1 => simp
  | j + 2 => simp [BitVec.getLsbD_of_ge (0xC0000000#32) (30 + (j + 2)) (by omega)]

/-- SyncRead answers the stream's header while its last word lies inside the buffer (R58, R60, R61). -/
theorem syncRead_eq (s : State) (slip k : Nat) :
    syncRead s slip k =
      if headerEndIndex slip k < s.n.toNat then .ok ((streamSync s slip k).setWidth 8)
      else .error (.word (max s.n.toNat (syncIndex slip k))) := by
  by_cases h31 : syncShift slip k = 31
  · rw [headerEndIndex_straddle h31, streamSync, framePos_split, h31,
      show 32 * syncIndex slip k + 31 + 1 = 32 * (syncIndex slip k + 1) + 0 by omega,
      streamBit_eq_getLsbD_readWord _ _ (by decide), streamBit_eq_getLsbD_readWord _ _ (by decide),
      syncRead, if_pos h31]
    exact memRead_bind_two s _ _
  · have hsh : syncShift slip k ≤ 30 := by have := syncShift_lt slip k; omega
    rw [headerEndIndex_within h31, streamSync, framePos_split, Nat.add_assoc,
      streamBit_eq_getLsbD_readWord _ _ (by omega), streamBit_eq_getLsbD_readWord _ _ (by omega),
      show 31 - (syncShift slip k + 1) = 30 - syncShift slip k by omega, ← headerMask_eq _ hsh,
      syncRead, if_neg h31]
    rcases Nat.lt_or_ge (syncIndex slip k) s.n.toNat with hi | hi
    · rw [memRead_ok hi, if_pos hi]
      rfl
    · rw [memRead_error hi, if_neg (by omega), Nat.max_eq_right hi]
      rfl

/-! ### PayloadRead (R59) -/

/-- Bit `i` of the number that stream bits spell is the bit `i` places before the last of them. -/
theorem streamNumber_testBit (s : State) (p : Nat) {len i : Nat} (hi : i < len) :
    (streamNumber s p len).testBit i = streamBit s (p + (len - 1 - i)) := by
  induction len generalizing i with
  | zero => cases hi
  | succ len ih =>
    rw [streamNumber, ← Nat.bit_val]
    cases i with
    | zero => rw [Nat.testBit_bit_zero]; rfl
    | succ i =>
      rw [Nat.testBit_bit_succ, ih (by omega)]
      congr 2
      omega

theorem streamRaw_getLsbD (s : State) (slip k : Nat) {j : Nat} (hj : j < 64) :
    (streamRaw s slip k).getLsbD (63 - j) = streamBit s (slip + 66 * k + 2 + j) := by
  have hlt : 63 - j < 64 := by omega
  have hback : 64 - 1 - (63 - j) = j := by omega
  simp only [streamRaw, BitVec.getLsbD_ofNat, hlt, decide_true, Bool.true_and, streamNumber_testBit s _ hlt, hback,
    framePos_eq]

/-- R59's slices `a ∥ b ∥ c`, in both geometries, by the offset `o` of the header's second bit in the first word read. -/
def payloadSlices (o : Nat) (wa wb wc : Word) : Payload :=
  (wa.extractLsb' 0 (31 - o) ++ wb ++ wc.extractLsb' (31 - o) (1 + o)).setWidth 64

/-- The slices are the 64 bits that follow the header's second bit, through three words from the top bit down. -/
theorem payloadSlices_getLsbD (wa wb wc : Word) {o j : Nat} (ho : o < 32) (hj : j < 64) :
    (payloadSlices o wa wb wc).getLsbD (63 - j) =
      if o + 1 + j < 32 then wa.getLsbD (31 - (o + 1 + j))
      else if o + 1 + j < 64 then wb.getLsbD (31 - (o + 1 + j - 32))
      else wc.getLsbD (31 - (o + 1 + j - 64)) := by
  have hlt : 63 - j < 64 := by omega
  simp only [payloadSlices, BitVec.getLsbD_setWidth, BitVec.getLsbD_append, BitVec.getLsbD_extractLsb', hlt, decide_true,
    Bool.true_and]
  rcases Nat.lt_or_ge (o + 1 + j) 32 with ha | ha
  · rw [if_neg (by omega), if_neg (by omega), if_pos ha, decide_eq_true (by omega), Bool.true_and]
    congr 1
    omega
  · rcases Nat.lt_or_ge (o + 1 + j) 64 with hb | hb
    · rw [if_neg (by omega), if_pos (by omega), if_neg (by omega), if_pos hb]
      congr 1
      omega
    · rw [if_pos (by omega), if_neg (by omega), if_neg (by omega), decide_eq_true (by omega), Bool.true_and]
      congr 1
      omega

/-- The slices of the three words from the one that holds the header's second bit are the stream's raw payload (R60). -/
theorem payloadSlices_eq_streamRaw (s : State) (slip k : Nat) :
    payloadSlices ((framePos slip k + 1) % 32) (readWord s.mem s.buf (headerEndIndex slip k))
      (readWord s.mem s.buf (headerEndIndex slip k + 1)) (readWord s.mem s.buf (headerEndIndex slip k + 2)) =
    streamRaw s slip k := by
  refine BitVec.eq_of_getLsbD_eq fun i hi => ?_
  obtain ⟨j, hj, rfl⟩ : ∃ j, j < 64 ∧ i = 63 - j := ⟨63 - i, by omega, by omega⟩
  have hpos : slip + 66 * k + 1 = 32 * headerEndIndex slip k + (framePos slip k + 1) % 32 :=
    (Nat.div_add_mod _ _).symm
  have ho : (framePos slip k + 1) % 32 < 32 := Nat.mod_lt _ (by decide)
  generalize (framePos slip k + 1) % 32 = o at hpos ho ⊢
  rw [payloadSlices_getLsbD _ _ _ ho hj, streamRaw_getLsbD s slip k hj]
  split
  · next ha =>
    rw [show slip + 66 * k + 2 + j = 32 * headerEndIndex slip k + (o + 1 + j) by omega,
      streamBit_eq_getLsbD_readWord s _ ha]
  · split
    · next hb =>
      rw [show slip + 66 * k + 2 + j = 32 * (headerEndIndex slip k + 1) + (o + 1 + j - 32) by omega,
        streamBit_eq_getLsbD_readWord s _ (by omega)]
    · rw [show slip + 66 * k + 2 + j = 32 * (headerEndIndex slip k + 2) + (o + 1 + j - 64) by omega,
        streamBit_eq_getLsbD_readWord s _ (by omega)]

/-- In both geometries PayloadRead reads three words from the one that holds the header's second bit. -/
theorem payloadRead_eq_slices (s : State) (slip k : Nat) :
    payloadRead s slip k = (do
      let wa ← memRead s (headerEndIndex slip k)
      let wb ← memRead s (headerEndIndex slip k + 1)
      let wc ← memRead s (headerEndIndex slip k + 2)
      return payloadSlices ((framePos slip k + 1) % 32) wa wb wc) := by
  have hp := framePos_split slip k
  by_cases h31 : syncShift slip k = 31
  · have ho : (framePos slip k + 1) % 32 = 0 := by omega
    rw [payloadRead, if_pos h31, headerEndIndex_straddle h31, ho]
    rfl
  · have hlt := syncShift_lt slip k
    have ho : (framePos slip k + 1) % 32 = syncShift slip k + 1 := by omega
    rw [payloadRead, if_neg h31, headerEndIndex_within h31, ho]
    simp only [payloadSlices]
    rw [show 31 - (syncShift slip k + 1) = 30 - syncShift slip k by omega,
      show 1 + (syncShift slip k + 1) = 2 + syncShift slip k by omega]

/-- PayloadRead answers the stream's raw payload while its last word lies inside the buffer (R59, R60, R61). -/
theorem payloadRead_eq (s : State) (slip k : Nat) :
    payloadRead s slip k =
      if headerEndIndex slip k + 2 < s.n.toNat then .ok (streamRaw s slip k)
      else .error (.word (max s.n.toNat (headerEndIndex slip k))) := by
  rw [payloadRead_eq_slices, memRead_bind_three, payloadSlices_eq_streamRaw]

/-! ### The two ways a read ends (R60, R61) -/

theorem syncRead_ok {s : State} {slip k : Nat} (h : slip + 66 * k + 2 ≤ 32 * s.n.toNat) :
    syncRead s slip k = .ok ((streamSync s slip k).setWidth 8) := by
  have hend := headerEndIndex_ge_iff slip k s.n.toNat
  rw [syncRead_eq, if_pos (by omega)]

theorem syncRead_error {s : State} {slip k : Nat} (h : 32 * s.n.toNat < slip + 66 * k + 2) :
    syncRead s slip k = .error (.word (max s.n.toNat (syncIndex slip k))) := by
  have hend := headerEndIndex_ge_iff slip k s.n.toNat
  rw [syncRead_eq, if_neg (by omega)]

theorem payloadRead_ok {s : State} {slip k : Nat} (h : slip + 66 * k + 66 ≤ 32 * s.n.toNat) :
    payloadRead s slip k = .ok (streamRaw s slip k) := by
  have hend := payloadEnd_ge_iff slip k s.n.toNat
  rw [payloadRead_eq, if_pos (by omega)]

theorem payloadRead_error {s : State} {slip k : Nat} (h : 32 * s.n.toNat < slip + 66 * k + 66) :
    payloadRead s slip k = .error (.word (max s.n.toNat (headerEndIndex slip k))) := by
  have hend := payloadEnd_ge_iff slip k s.n.toNat
  rw [payloadRead_eq, if_neg (by omega)]

/-- A read that answers up to a bound and raises `e` past it raises exactly past the bound, and only `e`. -/
theorem raises_iff {α : Type} {x : Except FaultInfo α} {a : α} {e : FaultInfo} {bound p : Nat}
    (hok : p ≤ bound → x = .ok a) (herr : bound < p → x = .error e) :
    ((∃ fi, x = .error fi) ↔ bound < p) ∧ ∀ fi, x = .error fi → fi = e := by
  rcases Nat.lt_or_ge bound p with h | h
  · simp [herr h, h, eq_comm]
  · simp [hok h, h]

end Sys2Proof.Machine

open Sys2Proof Sys2Proof.Machine

/-- Settles O29: quotient and remainder of the frame's position by the word's width. -/
theorem positionSplits : Obligations.PositionSplits := by
  unfold Obligations.PositionSplits
  exact fun slip k => ⟨Nat.div_add_mod' _ _, syncShift_lt slip k⟩

/-- Settles O31: both reads answer the stream's definitions, whose payload bits are the stream's by their place. -/
theorem wordReadsAgree : Obligations.WordReadsAgree := by
  unfold Obligations.WordReadsAgree
  exact fun s slip k h =>
    ⟨syncRead_ok (by omega), _, payloadRead_ok h, rfl, fun _ hj => streamRaw_getLsbD s slip k hj⟩

/-- Settles O32, from the one equation of each read; PayloadRead's first word is the one that ends the header. -/
theorem readBounds : Obligations.ReadBounds := by
  unfold Obligations.ReadBounds
  intro s slip k
  obtain ⟨hsync, hsyncWord⟩ := raises_iff (syncRead_ok (s := s) (slip := slip) (k := k)) syncRead_error
  obtain ⟨hpayload, hpayloadWord⟩ := raises_iff (payloadRead_ok (s := s) (slip := slip) (k := k)) payloadRead_error
  rw [headerEndIndex_eq] at hpayloadWord
  exact ⟨hsync, hpayload, hsyncWord, hpayloadWord⟩

end

section
/-! PROOF. The descrambler (41_descrambler.md R63 to R68) over `S = P0 ∥ R`: with the bits of R down to `m` shifted in, the
register holds bits `m` to `m + 63` of S. -/

namespace Sys2Proof.Machine

/-! ### One step's writes -/

theorem shiftIn_getLsbD (q : Payload) (b : Bool) {j : Nat} (hj : j < 64) :
    (shiftIn q b).getLsbD j = if j = 0 then b else q.getLsbD (j - 1) := by
  cases j with
  | zero => simp [shiftIn]
  | succ j => simp [shiftIn, hj, BitVec.getLsbD_eq_getElem (Nat.lt_of_succ_lt hj)]

theorem putBit_getLsbD (out : Payload) (i : Nat) (b : Bool) {j : Nat} (hj : j < 64) :
    (putBit out i b).getLsbD j = (out.getLsbD j || (decide (j = i) && b)) := by
  have hplace : (!decide (j < i) && decide (j - i = 0)) = decide (j = i) := by
    rw [Bool.eq_iff_iff]
    simp only [Bool.and_eq_true, Bool.not_eq_true', decide_eq_true_eq, decide_eq_false_iff_not]
    omega
  simp [putBit, hj, ← hplace, Bool.and_assoc]

/-- `out` with its bits `m - 1` down to 0, still 0 in it, set to those of `f`, in the order of both loops. -/
def putBits (f : Nat → Bool) : Nat → Payload → Payload
  | 0, out => out
  | i + 1, out => putBits f i (putBit out i (f i))

theorem putBits_getLsbD (f : Nat → Bool) (m : Nat) (out : Payload) {j : Nat} (hj : j < 64) :
    (putBits f m out).getLsbD j = (out.getLsbD j || (decide (j < m) && f j)) := by
  induction m generalizing out with
  | zero => simp [putBits]
  | succ i ih =>
    rw [putBits, ih, putBit_getLsbD _ _ _ hj]
    rcases Nat.lt_trichotomy j i with h | rfl | h
    · simp [h, h.ne, Nat.lt_succ_of_lt h]
    · simp
    · simp [h.ne', Nat.not_lt_of_gt h, Nat.not_lt_of_ge h]

theorem putBits_zero_getLsbD (f : Nat → Bool) {j : Nat} (hj : j < 64) : (putBits f 64 0).getLsbD j = f j := by
  rw [putBits_getLsbD f 64 0 hj]
  simp [hj]

theorem putBits_getLsbD_self (y : Payload) : putBits y.getLsbD 64 0 = y :=
  BitVec.eq_of_getLsbD_eq fun _ hj => putBits_zero_getLsbD _ hj

/-! ### The register (R64, R65) -/

/-- The register once the bits of `r` down to `m` have followed `p` into it: bits `m` to `m + 63` of `p ∥ r`. -/
def registerAt (p r : Payload) (m : Nat) : Payload := (p ++ r).extractLsb' m 64

theorem append_getLsbD_of_lt (p r : Payload) {i : Nat} (hi : i < 64) : (p ++ r).getLsbD i = r.getLsbD i := by
  rw [BitVec.getLsbD_append, if_pos hi]

theorem registerAt_getLsbD (p r : Payload) (m : Nat) {j : Nat} (hj : j < 64) :
    (registerAt p r m).getLsbD j = (p ++ r).getLsbD (m + j) := by
  simp [registerAt, hj]

/-- R64's word operations: each slice of `p ∥ r` is the rest of `r` below the start of `p`. -/
theorem registerAt_eq_shifts (p r : Payload) {m : Nat} (hm : m ≤ 64) :
    registerAt p r m = (r >>> m) ^^^ (p <<< (64 - m)) := by
  refine BitVec.eq_of_getLsbD_eq fun j hj => ?_
  rw [registerAt_getLsbD p r m hj, BitVec.getLsbD_append, BitVec.getLsbD_xor, BitVec.getLsbD_ushiftRight,
    BitVec.getLsbD_shiftLeft]
  split
  · next h => simp [show j < 64 - m by omega]
  · next h => simp [hj, show ¬ j < 64 - m by omega, show m + j - 64 = j - (64 - m) by omega,
      BitVec.getLsbD_of_ge r (m + j) (by omega)]

theorem registerAt_start (p r : Payload) : registerAt p r 64 = p := by
  rw [registerAt_eq_shifts p r (Nat.le_refl _)]
  simp [BitVec.ushiftRight_eq_zero]

theorem registerAt_end (p r : Payload) : registerAt p r 0 = r := by
  rw [registerAt_eq_shifts p r (Nat.zero_le _)]
  simp

/-- Step 1 of R63. -/
theorem shiftIn_registerAt (p r : Payload) {i : Nat} (hi : i < 64) :
    shiftIn (registerAt p r (i + 1)) (r.getLsbD i) = registerAt p r i := by
  refine BitVec.eq_of_getLsbD_eq fun j hj => ?_
  rw [shiftIn_getLsbD _ _ hj, registerAt_getLsbD _ _ _ hj]
  split
  · next h => exact h ▸ (append_getLsbD_of_lt p r hi).symm
  · next h => rw [registerAt_getLsbD _ _ _ (by omega), show i + 1 + (j - 1) = i + j by omega]

/-! ### Descramble (R63 to R65) -/

/-- Bit `i` of the output, by R64's closed form. -/
def descrambledBit (p r : Payload) (i : Nat) : Bool :=
  ((p ++ r).getLsbD i ^^ (p ++ r).getLsbD (i + tapA)) ^^ (p ++ r).getLsbD (i + tapB)

/-- Step 2 of R63: the bit it writes is R64's. -/
theorem registerAt_taps (p r : Payload) (i : Nat) :
    (((registerAt p r i).getLsbD 0 ^^ (registerAt p r i).getLsbD tapA) ^^ (registerAt p r i).getLsbD tapB) =
      descrambledBit p r i := by
  rw [registerAt_getLsbD _ _ _ (by decide), registerAt_getLsbD _ _ _ (by decide), registerAt_getLsbD _ _ _ (by decide)]
  rfl

theorem descrambleLoop_eq (p r : Payload) {m : Nat} (hm : m ≤ 64) (out : Payload) :
    descrambleLoop r m (registerAt p r m) out = (r, putBits (descrambledBit p r) m out) := by
  induction m generalizing out with
  | zero => rw [descrambleLoop, registerAt_end, putBits]
  | succ i ih =>
    simp only [descrambleLoop, putBits]
    rw [shiftIn_registerAt p r hm, registerAt_taps, ih (by omega)]

theorem descrambleLoop_full (p r : Payload) :
    descrambleLoop r 64 p 0 = (r, putBits (descrambledBit p r) 64 0) := by
  simpa only [registerAt_start] using descrambleLoop_eq p r (Nat.le_refl 64) 0

theorem descramble_getLsbD (p r : Payload) {i : Nat} (hi : i < 64) :
    (descramble p r).getLsbD i = descrambledBit p r i := by
  rw [descramble, descrambleLoop_full, putBits_zero_getLsbD _ hi]

/-- The output is the XOR of three slices of `p ∥ r`: at 0 and at both taps. -/
theorem descramble_eq_slices (p r : Payload) :
    descramble p r = (registerAt p r 0 ^^^ registerAt p r tapA) ^^^ registerAt p r tapB := by
  refine BitVec.eq_of_getLsbD_eq fun i hi => ?_
  simp only [descramble_getLsbD p r hi, descrambledBit, BitVec.getLsbD_xor, registerAt_getLsbD p r _ hi, Nat.zero_add,
    Nat.add_comm i]

theorem descramble_eq_closed (p r : Payload) : descramble p r = descrambleClosed p r := by
  rw [descramble_eq_slices, registerAt_end, registerAt_eq_shifts p r (by decide), registerAt_eq_shifts p r (by decide)]
  simp only [descrambleClosed, BitVec.xor_assoc, tapA, tapB, Nat.reduceSub]

/-! ### Scramble (R68) -/

theorem xor_xor_cancel_pair : ∀ d a b : Bool, ((((d ^^ a) ^^ b) ^^ a) ^^ b) = d := by decide

/-- A step of Scramble on a descrambled bit: the two tapped bits cancel, so the raw bit comes back. -/
theorem scrambleStep_descrambled (p y : Payload) {i : Nat} (hi : i < 64) :
    (((descramble p y).getLsbD i ^^ (registerAt p y (i + 1)).getLsbD (tapA - 1)) ^^
      (registerAt p y (i + 1)).getLsbD (tapB - 1)) = y.getLsbD i := by
  rw [descramble_getLsbD p y hi, registerAt_getLsbD _ _ _ (by decide), registerAt_getLsbD _ _ _ (by decide),
    show i + 1 + (tapA - 1) = i + tapA from rfl, show i + 1 + (tapB - 1) = i + tapB from rfl, descrambledBit,
    append_getLsbD_of_lt p y hi, xor_xor_cancel_pair]

theorem scrambleLoop_descramble (p y : Payload) {m : Nat} (hm : m ≤ 64) (out : Payload) :
    scrambleLoop (descramble p y) m (registerAt p y m) out = putBits y.getLsbD m out := by
  induction m generalizing out with
  | zero => rfl
  | succ i ih =>
    simp only [scrambleLoop, putBits]
    rw [scrambleStep_descrambled p y hm, shiftIn_registerAt p y hm, ih (by omega)]

theorem scramble_descramble (p y : Payload) : scramble p (descramble p y) = y := by
  have h := scrambleLoop_descramble p y (Nat.le_refl 64) 0
  rwa [registerAt_start, putBits_getLsbD_self] at h

theorem descramble_injective (p : Payload) : Function.Injective (descramble p) :=
  Function.LeftInverse.injective (scramble_descramble p)

/-- An injective map of the finitely many payloads to themselves reaches each of them. -/
theorem descramble_surjective (p : Payload) : Function.Surjective (descramble p) := by
  have : Finite Payload := Finite.of_injective BitVec.toFin fun _ _ => BitVec.eq_of_toFin_eq
  exact Finite.surjective_of_injective (descramble_injective p)

theorem descramble_scramble (p x : Payload) : descramble p (scramble p x) = x :=
  Function.LeftInverse.rightInverse_of_surjective (scramble_descramble p) (descramble_surjective p) x

end Sys2Proof.Machine

open Sys2Proof Sys2Proof.Machine

/-- Settles O33: the loop writes R64's bits, and these are the three slices of `P0 ∥ R` that R64's shifts cut out. -/
theorem descrambleClosedForm : Obligations.DescrambleClosedForm := by
  unfold Obligations.DescrambleClosedForm
  exact fun p r => ⟨fun _ hi => descramble_getLsbD p r hi, descramble_eq_closed p r⟩

/-- Settles O34: the register ends on the lowest 64 bits of `P0 ∥ R`. -/
theorem descramblerKeepsRaw : Obligations.DescramblerKeepsRaw := by
  unfold Obligations.DescramblerKeepsRaw
  intro p r
  rw [descrambleLast, descrambleLoop_full]

/-- Settles O35: Scramble undoes Descramble step by step; the other order follows, the payloads being finitely many. -/
theorem descrambleInvertsScramble : Obligations.DescrambleInvertsScramble := by
  unfold Obligations.DescrambleInvertsScramble
  exact fun p x => ⟨descramble_scramble p x, scramble_descramble p x⟩

end

section
/-! PROOF. What the alignment search can raise (42_alignment.md R79, 60_exceptions.md R120): it reads the buffer through SyncRead
alone, so whatever it raises names a word at or past N. With the two ways the search can answer, the three outcomes of
SYNCHRONIZE. -/

namespace Sys2Proof.Machine

/-! ### Raising only past the buffer -/

/-- Whatever `x` raises is the BoundsViolation of a word at or past N (20_memory.md R24). -/
def RaisesPastOnly (s : State) {α : Type} (x : Except FaultInfo α) : Prop :=
  ∀ fi, x = .error fi → ∃ j, fi = .word j ∧ s.n.toNat ≤ j

theorem RaisesPastOnly.ok {s : State} {α : Type} (a : α) : RaisesPastOnly s (.ok a : Except FaultInfo α) := nofun

theorem RaisesPastOnly.bind {s : State} {α β : Type} {x : Except FaultInfo α} {f : α → Except FaultInfo β}
    (hx : RaisesPastOnly s x) (hf : ∀ a, RaisesPastOnly s (f a)) : RaisesPastOnly s (x >>= f) := by
  intro fi h
  obtain h | ⟨a, -, h⟩ := bind_error_iff.mp h
  · exact hx fi h
  · exact hf a fi h

theorem RaisesPastOnly.ite {s : State} {α : Type} {p : Prop} [Decidable p] {x y : Except FaultInfo α}
    (hx : RaisesPastOnly s x) (hy : RaisesPastOnly s y) : RaisesPastOnly s (if p then x else y) := by
  split
  · exact hx
  · exact hy

theorem syncRead_raisesPastOnly (s : State) (slip k : Nat) : RaisesPastOnly s (syncRead s slip k) := by
  intro fi h
  rw [syncRead_eq] at h
  split at h
  · cases h
  · cases h
    exact ⟨_, rfl, Nat.le_max_left _ _⟩

/-! ### The search raises only what SyncRead raises (R69 to R73) -/

theorem headerValid_raisesPastOnly (s : State) (c k : Nat) : RaisesPastOnly s (headerValid s c k) :=
  (syncRead_raisesPastOnly s c k).bind fun _ => .ok _

theorem prefixFrom_raisesPastOnly (s : State) (c m k : Nat) : RaisesPastOnly s (prefixFrom s c m k) := by
  induction m generalizing k with
  | zero => exact .ok _
  | succ m ih => exact (headerValid_raisesPastOnly s c k).bind fun _ => (ih _).ite (.ok _)

theorem walk_raisesPastOnly (s : State) (c m k valid : Nat) : RaisesPastOnly s (walk s c m k valid) := by
  induction m generalizing k valid with
  | zero => exact .ok _
  | succ m ih => exact (headerValid_raisesPastOnly s c k).bind fun _ => (RaisesPastOnly.ok _).ite (ih _ _)

theorem tryCandidate_raisesPastOnly (s : State) (c : Nat) : RaisesPastOnly s (tryCandidate s c) :=
  (prefixFrom_raisesPastOnly s c _ _).bind fun _ =>
    ((RaisesPastOnly.ok _).ite (walk_raisesPastOnly s c _ _ _)).ite (.ok _)

/-! ### The search (R70) -/

/-- The search raises what a candidate's own test raises, once every lower candidate is rejected (R79). -/
theorem searchFrom_error {s : State} {m c : Nat} {fi : FaultInfo} (h : searchFrom s m c = .error fi) :
    ∃ a, c ≤ a ∧ a < c + m ∧ tryCandidate s a = .error fi ∧ ∀ b, c ≤ b → b < a → tryCandidate s b = .ok false := by
  induction m generalizing c with
  | zero => cases h
  | succ m ih =>
    obtain herr | ⟨ok, hok, h⟩ := bind_error_iff.mp h
    · exact ⟨c, Nat.le_refl _, by omega, herr, fun b h1 h2 => absurd h1 (by omega)⟩
    · cases ok with
      | true => cases h
      | false =>
        obtain ⟨a, hca, ham, herr, hlow⟩ := ih h
        refine ⟨a, by omega, by omega, herr, fun b hb hba => ?_⟩
        rcases Nat.eq_or_lt_of_le hb with rfl | hlt
        · exact hok
        · exact hlow b hlt hba

theorem search_some {s : State} {c : Nat} (h : search s = .ok (some c)) :
    c < 64 ∧ tryCandidate s c = .ok true ∧ ∀ b, b < c → tryCandidate s b = .ok false := by
  obtain ⟨-, hc, hacc, hlow⟩ := searchFrom_some h
  exact ⟨by omega, hacc, fun b => hlow b b.zero_le⟩

theorem search_none {s : State} (h : search s = .ok none) : ∀ c, c < 64 → tryCandidate s c = .ok false :=
  fun c hc => searchFrom_none h c c.zero_le (by omega)

theorem search_error {s : State} {fi : FaultInfo} (h : search s = .error fi) :
    ∃ c j, fi = .word j ∧ c < 64 ∧ tryCandidate s c = .error (.word j) ∧ s.n.toNat ≤ j ∧
      ∀ b, b < c → tryCandidate s b = .ok false := by
  obtain ⟨c, -, hc, herr, hlow⟩ := searchFrom_error h
  obtain ⟨j, rfl, hj⟩ := tryCandidate_raisesPastOnly s c fi herr
  exact ⟨c, j, rfl, by omega, herr, hj, fun b => hlow b b.zero_le⟩

/-! ### SYNCHRONIZE (45_receiver_commands.md R105) -/

/-- A gated command passes its gate when configured and not FAULTED (R101). -/
theorem exec_ready {i : Instr} {s : State} (hi : gatedCommand i = true) (hs : Ready s) : exec i s = commandBody i s := by
  obtain ⟨hc, hf⟩ := hs
  rw [exec_eq_gated hi, gated_ready hf hc]

theorem synchronizeBody_some {s : State} {c : Nat} (h : search s = .ok (some c)) :
    synchronizeBody s = .next ((s.acceptSlip c).answer .ok (.flag true)) := by
  rw [synchronizeBody, h]

theorem synchronizeBody_none {s : State} (h : search s = .ok none) :
    synchronizeBody s = .next (s.answer .ok (.flag false)) := by
  rw [synchronizeBody, h]

theorem synchronizeBody_error {s : State} {fi : FaultInfo} (h : search s = .error fi) :
    synchronizeBody s = .next (s.raiseBounds fi) := by
  rw [synchronizeBody, h]

end Sys2Proof.Machine

open Sys2Proof Sys2Proof.Machine

/-- Settles O37, by the three answers of the search: a candidate, none, or what a candidate's read past the buffer raises. -/
theorem synchronizeOutcomes : Obligations.SynchronizeOutcomes := by
  unfold Obligations.SynchronizeOutcomes
  intro s hs
  have hexec : exec .synchronize s = synchronizeBody s := exec_ready rfl hs
  rw [hexec]
  match hsearch : search s with
  | .ok (some c) =>
    obtain ⟨hc, hacc, hlow⟩ := search_some hsearch
    exact .inl ⟨c, hc, hacc, hlow, synchronizeBody_some hsearch⟩
  | .ok none => exact .inr (.inl ⟨search_none hsearch, synchronizeBody_none hsearch⟩)
  | .error fi =>
    obtain ⟨c, j, rfl, hc, herr, hj, hlow⟩ := search_error hsearch
    exact .inr (.inr ⟨c, j, hc, herr, hj, hlow, synchronizeBody_error hsearch⟩)

end

section
/-! PROOF. The frame iterator over the stream (43_frame_iterator.md R81, R83 to R88): the frames MaxFrames counts lie inside
the buffer, NextFrame answers the stream's record of each of them, and PROCESS's loop pushes the kept records and counts the
errors, so PROCESS leaves what the stream says. -/

namespace Sys2Proof.Machine

/-! ### MaxFrames (R83, R84) -/

theorem maxFrames_fit {s : State} (hfit : FramesFit s) : maxFrames s = .ok (frameCount s) := by
  unfold maxFrames frameCount
  by_cases hslip : s.bitslip = 0
  · rw [if_pos hslip, if_pos hslip]
    rfl
  · have hbase : baseFrames s ≠ 0 := hfit.resolve_left hslip
    rw [if_neg hslip, if_neg hslip, if_neg hbase]
    rfl

theorem maxFrames_underflow {s : State} (hfit : ¬ FramesFit s) : maxFrames s = .error .underflow := by
  obtain ⟨hslip, hbase⟩ := not_or.mp hfit
  rw [maxFrames, if_neg hslip]
  exact if_pos (not_not.mp hbase)

theorem maxFrames_ok {s : State} {mf : Nat} (h : maxFrames s = .ok mf) : FramesFit s ∧ mf = frameCount s := by
  by_cases hfit : FramesFit s
  · rw [maxFrames_fit hfit] at h
    cases h
    exact ⟨hfit, rfl⟩
  · rw [maxFrames_underflow hfit] at h
    cases h

theorem frameCount_fits_aligned {s : State} (hslip : s.bitslip = 0) : 66 * frameCount s ≤ 32 * s.n.toNat := by
  rw [frameCount, if_pos hslip]
  exact Nat.mul_div_le _ _

/-- One frame fewer than `⌊32·N/66⌋` leaves room for any slip, since a slip is at most 63 (R84). -/
theorem frameCount_fits_slipped {s : State} (hfit : FramesFit s) (hslip : s.bitslip ≠ 0) :
    s.bitslip.toNat + 66 * frameCount s < 32 * s.n.toNat := by
  have hbase : 32 * s.n.toNat / 66 ≠ 0 := hfit.resolve_left hslip
  have hlt : s.bitslip.toNat < 64 := s.bitslip.isLt
  rw [frameCount, if_neg hslip]
  omega

theorem frameCount_fits {s : State} (hfit : FramesFit s) : s.bitslip.toNat + 66 * frameCount s ≤ 32 * s.n.toNat := by
  by_cases hslip : s.bitslip = 0
  · simpa [hslip] using frameCount_fits_aligned hslip
  · exact (frameCount_fits_slipped hfit hslip).le

theorem frame_inside_of_lt_frameCount {s : State} (hfit : FramesFit s) {k : Nat} (hk : k < frameCount s) :
    s.bitslip.toNat + 66 * k + 66 ≤ 32 * s.n.toNat := by
  have hall := frameCount_fits hfit
  omega

theorem frameCount_le_wholeFrames {s : State} (hfit : FramesFit s) :
    frameCount s ≤ (32 * s.n.toNat - s.bitslip.toNat) / 66 := by
  have hall := frameCount_fits hfit
  omega

/-- The formula of R83 gives at most one frame fewer than fit (R84). -/
theorem wholeFrames_le_frameCount_succ (s : State) : (32 * s.n.toNat - s.bitslip.toNat) / 66 ≤ frameCount s + 1 := by
  have hle : (32 * s.n.toNat - s.bitslip.toNat) / 66 ≤ 32 * s.n.toNat / 66 := Nat.div_le_div_right (Nat.sub_le _ _)
  unfold frameCount
  split <;> omega

/-! ### NextFrame (R81) -/

theorem nextFrame_ok {s : State} {k : Nat} (h : s.bitslip.toNat + 66 * k + 66 ≤ 32 * s.n.toNat) :
    nextFrame s k = .ok (recordAt s k) := by
  have hheader : ((streamSync s s.bitslip.toNat k).setWidth 8).setWidth 2 = streamSync s s.bitslip.toNat k := by simp
  refine bind_ok_iff.mpr ⟨_, syncRead_ok (by omega), bind_ok_iff.mpr ⟨_, payloadRead_ok h, ?_⟩⟩
  rw [hheader]
  cases k with
  | zero => rfl
  | succ j => exact bind_ok_iff.mpr ⟨_, payloadRead_ok (by omega), rfl⟩

/-! ### The stream reads the handle and the buffer only (00_scope.md R6) -/

theorem streamBit_congr {s t : State} (hb : t.buf = s.buf) (hm : t.mem = s.mem) : streamBit t = streamBit s := by
  funext b
  rw [streamBit, streamBit, hb, hm]

theorem streamSync_congr {s t : State} (hb : t.buf = s.buf) (hm : t.mem = s.mem) (c k : Nat) :
    streamSync t c k = streamSync s c k := by
  rw [streamSync, streamSync, streamBit_congr hb hm]

theorem streamNumber_congr {s t : State} (hb : t.buf = s.buf) (hm : t.mem = s.mem) (p len : Nat) :
    streamNumber t p len = streamNumber s p len := by
  induction len with
  | zero => rfl
  | succ len ih => rw [streamNumber, streamNumber, ih, streamBit_congr hb hm]

theorem streamRaw_congr {s t : State} (hb : t.buf = s.buf) (hm : t.mem = s.mem) (c k : Nat) :
    streamRaw t c k = streamRaw s c k := by
  rw [streamRaw, streamRaw, streamNumber_congr hb hm]

/-- The records depend on no element that PROCESS writes. -/
theorem recordAt_congr {s t : State} (hs : t.bitslip = s.bitslip) (hb : t.buf = s.buf) (hm : t.mem = s.mem) :
    recordAt t = recordAt s := by
  funext k
  simp only [recordAt, hs, streamSync_congr hb hm, streamRaw_congr hb hm]

/-! ### The loop (R85 to R87) -/

/-- The records of the kept ones of `m` frames from frame `k` on, in ascending order. -/
def keptRecords (d : Bool) (s : State) (k m : Nat) : List FrameRecord :=
  ((List.range' k m).filter (keptAt s d)).map (recordAt s)

/-- How many of `m` frames from frame `k` on have an invalid header. -/
def errorCount (s : State) (k m : Nat) : Nat := (List.range' k m).countP fun j => (recordAt s j).cls == .error

theorem keptRecords_frameCount (d : Bool) (s : State) : keptRecords d s 0 (frameCount s) = processedPackets s d := by
  rw [keptRecords, processedPackets, List.range_eq_range']

theorem errorCount_frameCount (s : State) : errorCount s 0 (frameCount s) = errorFrames s := by
  rw [errorCount, errorFrames, List.range_eq_range']

theorem keptAt_eq_not_skipsRecord (d : Bool) (s : State) (k : Nat) :
    keptAt s d k = !skipsRecord s.hw.frame0Policy d k (recordAt s k) :=
  (Bool.not_or ..).symm

theorem recordAt_written (s : State) (recs : List FrameRecord) (errs : Nat) :
    recordAt { s with packets := recs, berCounter := errs } = recordAt s :=
  recordAt_congr rfl rfl rfl

theorem keptAt_written (d : Bool) (s : State) (recs : List FrameRecord) (errs : Nat) :
    keptAt { s with packets := recs, berCounter := errs } d = keptAt s d := by
  funext k
  rw [keptAt, keptAt, recordAt_written]

theorem keptRecords_written (d : Bool) (s : State) (recs : List FrameRecord) (errs k m : Nat) :
    keptRecords d { s with packets := recs, berCounter := errs } k m = keptRecords d s k m := by
  rw [keptRecords, keptRecords, recordAt_written, keptAt_written]

theorem errorCount_written (s : State) (recs : List FrameRecord) (errs k m : Nat) :
    errorCount { s with packets := recs, berCounter := errs } k m = errorCount s k m := by
  rw [errorCount, errorCount, recordAt_written]

theorem packets_append_keptRecords_succ (d : Bool) (s : State) (k m : Nat) :
    s.packets ++ keptRecords d s k (m + 1) =
      (acceptFrame d k (recordAt s k) s).packets ++ keptRecords d s (k + 1) m := by
  rw [acceptFrame_eq, keptRecords, List.range'_succ, List.filter_cons, keptAt_eq_not_skipsRecord]
  cases skipsRecord s.hw.frame0Policy d k (recordAt s k) with
  | true => rfl
  | false => exact (List.append_assoc _ [recordAt s k] _).symm

theorem errorCount_succ (s : State) (k m : Nat) :
    errorCount s k (m + 1) = errorsOf (recordAt s k).cls + errorCount s (k + 1) m := by
  simp [errorCount, errorsOf, List.range'_succ, List.countP_cons, Nat.add_comm]

/-- The loop over frames inside the buffer answers: it pushes the kept records, counts the errors and writes nothing else. -/
theorem processLoop_eq {d : Bool} {m k : Nat} {s : State}
    (h : s.bitslip.toNat + 66 * (k + m) ≤ 32 * s.n.toNat) :
    processLoop d m k s =
      .ok { s with packets := s.packets ++ keptRecords d s k m, berCounter := s.berCounter + errorCount s k m } := by
  induction m generalizing k s with
  | zero => simp [processLoop, keptRecords, errorCount]
  | succ m ih =>
    refine bind_ok_iff.mpr ⟨_, nextFrame_ok (by omega), ?_⟩
    rw [packets_append_keptRecords_succ, errorCount_succ, acceptFrame_eq, ih (by simp only; omega), keptRecords_written,
      errorCount_written, Nat.add_assoc]

/-! ### PROCESS (R85, R88) -/

theorem process_eq (d : Bool) {s : State} (hfit : FramesFit s) :
    process d s = .ok { s with packets := processedPackets s d, berCounter := processedBer s } := by
  have hloop : processLoop d (frameCount s) 0 s.beginProcess =
      .ok { s with packets := processedPackets s d, berCounter := errorFrames s } := by
    have hinside := frameCount_fits hfit
    rw [processLoop_eq (by simp only [State.beginProcess_bitslip, State.beginProcess_n]; omega), State.beginProcess,
      keptRecords_written, errorCount_written, keptRecords_frameCount, errorCount_frameCount, List.nil_append,
      Nat.zero_add]
  exact bind_ok_iff.mpr ⟨_, maxFrames_fit hfit, bind_ok_iff.mpr ⟨_, hloop, rfl⟩⟩

/-- At most `mf` errors among `mf` frames: the percentage over `mf + 1` stays below 100 (R88). -/
theorem processedBer_le (s : State) : processedBer s ≤ 99 := by
  have hle : errorFrames s ≤ frameCount s := List.countP_le_length.trans_eq List.length_range
  have hlt : errorFrames s * 100 / (frameCount s + 1) < 100 := Nat.div_lt_of_lt_mul (by omega)
  exact Nat.le_of_lt_succ hlt

end Sys2Proof.Machine

open Sys2Proof Sys2Proof.Machine

/-- Settles O39: MaxFrames leaves room for the slip and for every frame it counts, and the reads of such a frame answer. -/
theorem processNeverReadsPastBuffer : Obligations.ProcessNeverReadsPastBuffer := by
  unfold Obligations.ProcessNeverReadsPastBuffer
  intro s mf hmf
  obtain ⟨hfit, rfl⟩ := maxFrames_ok hmf
  refine ⟨?framesRead, frameCount_fits_aligned, frameCount_fits_slipped hfit, frameCount_le_wholeFrames hfit,
    wholeFrames_le_frameCount_succ s⟩
  case framesRead =>
    intro k hk
    have hinside := frame_inside_of_lt_frameCount hfit hk
    exact ⟨hinside, _, nextFrame_ok hinside⟩

/-- Settles O40: PROCESS passes its gate, and its loop over the frames MaxFrames counts is the stream's account of them. -/
theorem processMatchesStream : Obligations.ProcessMatchesStream := by
  unfold Obligations.ProcessMatchesStream
  intro d s hs hfit
  have hexec : exec (.process d) s = processBody d s := exec_ready rfl hs
  refine ⟨?_, processedBer_le s⟩
  rw [hexec, processBody, process_eq d hfit]
  rfl

end

section
/-! PROOF. The packet decoders (44_packet_decoders.md): parity as the XOR of bits (R92), what the validity flags compare (R94,
R95), what a flipped bit does to them (R100), and the slices of a packet as numbers (R96 to R98). -/

namespace Sys2Proof.Machine

/-! ### Parity (R92) -/

theorem odd_add_bit (n : Nat) (b : Bool) : ((n + b.toNat) % 2 == 1) = ((n % 2 == 1) ^^ b) := by
  cases b with
  | false => simp
  | true => rcases Nat.mod_two_eq_zero_or_one n with hn | hn <;> simp [Nat.add_mod, hn]

/-- One more bit changes the count's oddness by that bit, as it changes the XOR. -/
theorem odd_popcountBelow {w : Nat} (v : BitVec w) (m : Nat) :
    (popcountBelow v m % 2 == 1) = ((List.range m).map v.getLsbD).foldl (· ^^ ·) false := by
  induction m with
  | zero => rfl
  | succ m ih =>
    rw [popcountBelow, odd_add_bit, ih, List.range_succ, List.map_append, List.foldl_append]
    rfl

theorem popcountBelow_setWidth {w : Nat} (v : BitVec w) {n m : Nat} (hm : m ≤ n) :
    popcountBelow (v.setWidth n) m = popcountBelow v m := by
  induction m with
  | zero => rfl
  | succ m ih =>
    have hbit : (v.setWidth n).getLsbD m = v.getLsbD m := by
      rw [BitVec.getLsbD_setWidth, decide_eq_true (Nat.lt_of_succ_le hm), Bool.true_and]
    rw [popcountBelow, popcountBelow, ih (Nat.le_of_lt hm), hbit]

/-- There is no 1 bit above a value's width. -/
theorem popcountBelow_add_width {w : Nat} (v : BitVec w) (e : Nat) : popcountBelow v (w + e) = popcount v := by
  induction e with
  | zero => rfl
  | succ e ih => rw [← Nat.add_assoc, popcountBelow, ih, BitVec.getLsbD_of_ge v _ (Nat.le_add_right w e)]; rfl

theorem parity_iff {w : Nat} (v : BitVec w) : parity v = true ↔ popcount v % 2 = 1 := beq_iff_eq

theorem popcount_setWidth_add {w : Nat} (v : BitVec w) (e : Nat) : popcount (v.setWidth (w + e)) = popcount v :=
  (popcountBelow_setWidth v (Nat.le_refl _)).trans (popcountBelow_add_width v e)

/-! ### The validity flags (R94, R95, R100) -/

theorem fieldOk_iff {w : Nat} {v : BitVec w} {stored : Bool} : fieldOk v stored = true ↔ parity v = stored := beq_iff_eq

theorem hasValidParity_iff {p : EventPacket} :
    hasValidParity p = true ↔ (((p.chP ^^ p.tP) ^^ p.tsP) ^^ p.pwP) = p.combinedP := beq_iff_eq

theorem decodeEventPayload_eventToBits (p : EventPacket) : decodeEventPayload (eventToBits p) = eventRecord p := by
  have hdecode := Laws.RoundTrip.eventPacket p rfl
  have hfields : eventOfBits (eventToBits p) = p := Instr.eventPacket.inj (Except.ok.inj hdecode)
  rw [decodeEventPayload, hfields]

/-- The XOR of a payload's five parity bits D[20:16]. -/
def parityBitsXor (d : Payload) : Bool :=
  (((d.getLsbD 20 ^^ d.getLsbD 19) ^^ d.getLsbD 18) ^^ d.getLsbD 17) ^^ d.getLsbD 16

/-- The combined check is that the five parity bits have an even number of 1 bits (R95). -/
theorem decodeEventPayload_hasValidParity (d : Payload) :
    (decodeEventPayload d).hasValidParity = !parityBitsXor d := by
  have beq_eq_not_xor : ∀ x y : Bool, (x == y) = !(x ^^ y) := by decide
  exact beq_eq_not_xor _ _

theorem parityBitsXor_xor (d m : Payload) : parityBitsXor (d ^^^ m) = (parityBitsXor d ^^ parityBitsXor m) := by
  simp only [parityBitsXor, BitVec.getLsbD_xor, Bool.xor_assoc, Bool.xor_comm, Bool.xor_left_comm]

theorem parityBitsXor_oneBit {b : Nat} (hlo : 16 ≤ b) (hhi : b ≤ 20) : parityBitsXor ((1 : Payload) <<< b) = true := by
  interval_cases b <;> decide

theorem hasValidParity_flip (d : Payload) {b : Nat} (hlo : 16 ≤ b) (hhi : b ≤ 20) :
    (decodeEventPayload (d ^^^ ((1 : Payload) <<< b))).hasValidParity = !(decodeEventPayload d).hasValidParity := by
  have hflip : parityBitsXor (d ^^^ ((1 : Payload) <<< b)) = !parityBitsXor d := by
    rw [parityBitsXor_xor, parityBitsXor_oneBit hlo hhi, Bool.xor_true]
  rw [decodeEventPayload_hasValidParity, decodeEventPayload_hasValidParity, hflip]

/-! ### Slices as numbers (R96 to R98) -/

theorem toNat_slice {w : Nat} (d : BitVec w) (lo len : Nat) :
    (d.extractLsb' lo len).toNat = d.toNat / 2 ^ lo % 2 ^ len := by
  rw [BitVec.extractLsb'_toNat, Nat.shiftRight_eq_div_pow]

/-- A slice that reaches the top bit needs no cut above. -/
theorem toNat_top_slice (lo len : Nat) (d : BitVec (lo + len)) : (d.extractLsb' lo len).toNat = d.toNat / 2 ^ lo := by
  rw [toNat_slice, Nat.mod_eq_of_lt (Nat.div_lt_of_lt_mul (Nat.pow_add 2 lo len ▸ d.isLt))]

theorem toNat_payloads (d1 d2 : Payload) : (d1 ++ d2).toNat = d1.toNat * 2 ^ 64 + d2.toNat := by
  rw [BitVec.toNat_append, ← Nat.shiftLeft_add_eq_or_of_lt d2.isLt, Nat.shiftLeft_eq]

/-- The slice C[67:48] is the low 4 bits of D1 over the high 16 of D2 (R97). -/
theorem toNat_slice_across (d1 d2 : Payload) :
    ((d1 ++ d2).extractLsb' 48 20).toNat = d1.toNat % 2 ^ 4 * 2 ^ 16 + d2.toNat / 2 ^ 48 := by
  have hd2 := d2.isLt
  rw [toNat_slice, toNat_payloads]
  omega

end Sys2Proof.Machine

open Sys2Proof Sys2Proof.Machine

/-- Settles O48, by induction on the number of bits counted. -/
theorem parityIsXor : Obligations.ParityIsXor := by
  unfold Obligations.ParityIsXor
  refine fun w v => ⟨parity_iff v, odd_popcountBelow v w, fun e => ?_⟩
  rw [parity, popcount_setWidth_add, parity]

/-- Settles O51: the combined check is on the XOR of the stored bits, and a flip of one of them negates it. -/
theorem parityBitFlipDetected : Obligations.ParityBitFlipDetected := by
  unfold Obligations.ParityBitFlipDetected
  intro p hch ht hts hpw hcombined
  have hvalid : (decodeEventPayload (eventToBits p)).hasValidParity = true := by
    rw [decodeEventPayload_eventToBits]
    exact hasValidParity_iff.mpr hcombined.symm
  refine ⟨?channel, ?evType, ?timestamp, ?pulseWidth, hvalid, ?flip⟩
  case flip => exact fun b hlo hhi => by rw [hasValidParity_flip _ hlo hhi, hvalid, Bool.not_true]
  all_goals rw [decodeEventPayload_eventToBits]
  case channel => exact fieldOk_iff.mpr hch.symm
  case evType => exact fieldOk_iff.mpr ht.symm
  case timestamp => exact fieldOk_iff.mpr hts.symm
  case pulseWidth => exact fieldOk_iff.mpr hpw.symm

/-- Settles O49: the record's fields are slices of D, and each flag is a comparison of two of its fields. -/
theorem decodeEventCompletes : Obligations.DecodeEventCompletes := by
  unfold Obligations.DecodeEventCompletes
  exact fun d s => ⟨decodeEventPayload d, rfl, toNat_top_slice 60 4 d, toNat_slice d 58 2, toNat_slice d 36 22,
    toNat_slice d 22 14, rfl, rfl, rfl, rfl, rfl, rfl, fieldOk_iff, fieldOk_iff, fieldOk_iff, fieldOk_iff,
    hasValidParity_iff⟩

/-- Settles O52: each counter but trigger_drop lies inside one of the two packets. -/
theorem decodeStatisticsCompletes : Obligations.DecodeStatisticsCompletes := by
  unfold Obligations.DecodeStatisticsCompletes
  intro d1 d2 s
  have hhigh {lo len : Nat} (hlo : 64 ≤ lo) : (d1 ++ d2).extractLsb' lo len = d1.extractLsb' (lo - 64) len :=
    BitVec.extractLsb'_append_eq_of_le hlo
  have hpulse : (d1 ++ d2).extractLsb' 32 16 = d2.extractLsb' 32 16 := BitVec.extractLsb'_append_eq_of_add_le (by decide)
  exact ⟨decodeStatisticsPayloads d1 d2, rfl, hhigh (by decide), hhigh (by decide), hhigh (by decide),
    toNat_slice_across d1 d2, hpulse⟩

/-- Settles O53: the record's fields are slices of D. -/
theorem decodeExtensionCompletes : Obligations.DecodeExtensionCompletes := by
  unfold Obligations.DecodeExtensionCompletes
  exact fun d s => ⟨decodeExtensionPayload d, rfl, toNat_top_slice 41 23 d, toNat_slice d 17 24, rfl⟩

end

section
/-! PROOF. CONSTRUCT's two clamps (45_receiver_commands.md R102): `pct` enters the new state only through `min(pct, 100)`
(R114), and the sample size is the smaller of the size and the requested sample (R115). -/

namespace Sys2Proof.Machine

theorem thresholdOf_of_above_max {pct : Byte} (hp : 100 < pct.toNat) (n : Word) : thresholdOf n pct = thresholdOf n 100 := by
  rw [thresholdOf, Nat.min_eq_right hp.le]; rfl

theorem thresholdOf_selectPct_of_above_max {pct : Byte} (hp : 100 < pct.toNat) (c : Bool) (n : Word) :
    thresholdOf n (selectPct c pct) = thresholdOf n (selectPct c 100) := by
  cases c with
  | true => rfl
  | false => exact thresholdOf_of_above_max hp n

@[simp] theorem thresholdOf_max (n : Word) : thresholdOf n 100 = n := by
  have hexact : n.toNat * min (100 : Byte).toNat pctMax / 100 = n.toNat := Nat.mul_div_cancel _ (by decide)
  rw [thresholdOf, hexact, BitVec.ofNat_toNat, BitVec.setWidth_eq]

theorem clampSample_of_le {size ss : Word} (h : size.toNat ≤ ss.toNat) : clampSample size ss = size := if_pos h

theorem clampSample_of_lt {size ss : Word} (h : ss.toNat < size.toNat) : clampSample size ss = ss :=
  if_neg (Nat.not_le.mpr h)

theorem toNat_selectSample (p : Bool) (ss : Word) : (selectSample p ss).toNat = if p then 64 else ss.toNat := by
  cases p <;> rfl

theorem State.constructed_of_threshold_eq {p q : Byte} (hpq : ∀ n, thresholdOf n p = thresholdOf n q) (s : State)
    (h : Handle) (z ss : Word) : s.constructed h z p ss = s.constructed h z q ss := by
  rw [constructed, hpq]; rfl

end Sys2Proof.Machine

open Sys2Proof Sys2Proof.Machine

/-- Settles O19: an accepted CONSTRUCT uses `pct` in the threshold only, and a refused one not at all. -/
theorem pctClamped : Obligations.PctClamped := by
  unfold Obligations.PctClamped
  refine ⟨?aboveMax, ?atMax⟩
  case aboveMax =>
    intro p c h z pct ss s hp
    rcases Nat.lt_or_ge s.hw.maxWords z.toNat with hz | hz
    · rw [exec_construct_refused hz, exec_construct_refused hz]
    · rw [exec_construct_accepted hz, exec_construct_accepted hz,
        State.constructed_of_threshold_eq (thresholdOf_selectPct_of_above_max hp c)]
  case atMax => exact fun _ _ _ _ _ hz => ⟨_, exec_construct_accepted hz, thresholdOf_max _⟩

/-- Settles O20: an accepted CONSTRUCT writes the clamped sample size, whose two cases are the statement's. -/
theorem sampleClamped : Obligations.SampleClamped := by
  unfold Obligations.SampleClamped
  intro p c h z pct ss s hz
  rw [← toNat_selectSample p ss]
  exact ⟨_, exec_construct_accepted hz, clampSample_of_le, clampSample_of_lt⟩

end

section
/-! PROOF. The refusal table (60_exceptions.md R122): which command words are reserved (30_encoding.md R53), what the gate
refuses (45_receiver_commands.md R101) and which operands are out of range. -/

namespace Sys2Proof.Machine

/-! ### The reserved words (30_encoding.md R51 to R53) -/

theorem toNat_opcodeOf (cmd : Byte) : (opcodeOf cmd).toNat = cmd.toNat / 16 := toNat_top_slice 4 4 cmd

theorem toNat_modifierOf (cmd : Byte) : (modifierOf cmd).toNat = cmd.toNat % 16 := by
  rw [modifierOf, toNat_slice, Nat.pow_zero, Nat.div_one]; rfl

/-- R53's four groups of opcodes: the reserved ones, CONSTRUCT, PROCESS, and the commands with no modifier. -/
theorem modifierMask_eq : ∀ op : BitVec 4, modifierMask op =
    if op.toNat = 0x0 ∨ op.toNat = 0xD ∨ op.toNat = 0xE ∨ op.toNat = 0xF then none
    else if op.toNat = 0x1 then some 0b0011
    else if op.toNat = 0x7 then some 0b0001
    else some 0 := by decide

/-- A modifier has a bit outside the low `k` exactly when it is at least `2 ^ k`. -/
theorem modifier_outside_low_bits : ∀ m : BitVec 4, ∀ k < 3,
    ((m &&& ~~~BitVec.ofNat 4 (2 ^ k - 1)) != 0) = true ↔ m.toNat / 2 ^ k ≠ 0 := by decide

theorem isReserved_iff (cmd : Byte) : isReserved cmd = true ↔ ReservedWord cmd := by
  have hmod := toNat_modifierOf cmd
  have hbits := modifier_outside_low_bits (modifierOf cmd)
  rw [isReserved, modifierMask_eq, toNat_opcodeOf, ReservedWord]
  by_cases hopcode : cmd.toNat / 16 = 0x0 ∨ cmd.toNat / 16 = 0xD ∨ cmd.toNat / 16 = 0xE ∨ cmd.toNat / 16 = 0xF
  · rw [if_pos hopcode]
    exact iff_of_true rfl (.inl hopcode)
  rw [if_neg hopcode]
  by_cases hconstruct : cmd.toNat / 16 = 0x1
  · rw [if_pos hconstruct]
    exact (hbits 2 (by decide)).trans (by omega)
  rw [if_neg hconstruct]
  by_cases hprocess : cmd.toNat / 16 = 0x7
  · rw [if_pos hprocess]
    exact (hbits 1 (by decide)).trans (by omega)
  · rw [if_neg hprocess]
    exact (hbits 0 (by decide)).trans (by omega)

theorem decode_reservedWord {cmd : Byte} (hcmd : ReservedWord cmd) (a b : BitVec 64) (c : Byte) (d : Word) :
    decode (.command cmd a b c d) = .ok (.reserved cmd) :=
  if_pos ((isReserved_iff cmd).mpr hcmd)

/-! ### The gate and the operands (R122, R124) -/

theorem exec_gated_faulted {i : Instr} {s : State} (hi : gatedCommand i = true) (hf : s.fault = true) :
    exec i s = .next (s.refuse .refusedFaulted) :=
  (exec_eq_gated hi s).trans (gated_faulted hf)

theorem refusedUntilReady_of_gated {i : Instr} (hi : gatedCommand i = true) : RefusedUntilReady i :=
  fun s => ⟨exec_gated_faulted hi, fun hf hc => (exec_eq_gated hi s).trans (gated_unconfigured hf hc)⟩

/-- An operand out of range is refused once no gate refuses; CONSTRUCT has no gate. -/
theorem exec_operandOutOfRange {i : Instr} {s : State} (ho : OperandOutOfRange s i)
    (hs : gatedCommand i = true → Ready s) : exec i s = .next (s.refuse .refusedOperand) := by
  cases i with
  | construct => exact exec_construct_refused ho
  | setBuffer => exact (exec_ready rfl (hs rfl)).trans (if_pos ho)
  | forceBitslip => exact (exec_ready rfl (hs rfl)).trans (if_pos ho)
  | _ => exact False.elim ho

end Sys2Proof.Machine

open Sys2Proof Sys2Proof.Machine

/-- Settles O12, by the table's rows: the decoder's reserved words are R53's, the gate refuses by R124's order, and a command
that passes it refuses its operand. -/
theorem refusalTable : Obligations.RefusalTable := by
  unfold Obligations.RefusalTable
  exact ⟨fun _ a b c d _ hcmd => ⟨decode_reservedWord hcmd a b c d, rfl⟩, fun _ => refusedUntilReady_of_gated,
    fun _ _ => exec_operandOutOfRange⟩

end

section
/-! PROOF. FAULTED is sticky (60_exceptions.md R126): while `fault` is set an instruction other than CONSTRUCT only replies, so
CONSTRUCT and power-on alone can clear it. -/

namespace Sys2Proof.Machine

/-! ### The host's move (20_memory.md R32) -/

/-- Everything a step that answers has performed: no move, a buffer write, power-on, or a decoded instruction. -/
theorem step_next {s t : State} (h : step s = .next t) :
    (s.inbox = [] ∧ t = s) ∨
    (∃ r i w rest, s.inbox = .store r i w :: rest ∧ i < 2 ^ 32 ∧
      t = { s with mem := writeWord s.mem r i w, inbox := rest }) ∨
    (∃ rest, s.inbox = .powerOn :: rest ∧
      t = { State.reset with hw := s.hw, mem := s.mem, inbox := rest, freeCount := s.freeCount }) ∨
    (∃ r rest i, s.inbox = .present r :: rest ∧ decode r = .ok i ∧ exec i { s with inbox := rest } = .next t) := by
  unfold step at h
  split at h
  · next hin => cases h; exact .inl ⟨hin, rfl⟩
  · next m rest hin =>
    cases m with
    | store r i w =>
      simp only [perform, hostStore] at h
      split at h
      · next hi => cases h; exact .inr (.inl ⟨r, i, w, rest, hin, hi, rfl⟩)
      · cases h
    | powerOn => cases h; exact .inr (.inr (.inl ⟨rest, hin, rfl⟩))
    | present r =>
      simp only [perform] at h
      split at h
      · next i hi => exact .inr (.inr (.inr ⟨r, rest, i, hin, hi, h⟩))
      · cases h

/-! ### While FAULTED (R126) -/

/-- The decoders, the frame rows and the packet rows answer OK in every state. -/
theorem exec_eq_answer_ok {i : Instr} (hc : isConstruct i = false) (hg : gatedCommand i = false)
    (hr : isReservedRow i = false) (s : State) : ∃ result, exec i s = .next (s.answer .ok result) := by
  cases i with
  | construct => cases hc
  | setBuffer | forceBitslip | synchronize | isSynchronized | getBitslip | process | getPacketBuffer | getBer => cases hg
  | reserved => cases hr
  | _ => exact ⟨_, rfl⟩

/-- While FAULTED an instruction other than CONSTRUCT leaves everything but the reply, which is no BOUNDS_VIOLATION. -/
theorem exec_faulted {i : Instr} {s : State} (hc : isConstruct i = false) (hf : s.fault = true) :
    ∃ status result, status ≠ .boundsViolation ∧ exec i s = .next (s.answer status result) := by
  cases hg : gatedCommand i with
  | true => exact ⟨.refusedFaulted, .noResult, nofun, exec_gated_faulted hg hf⟩
  | false =>
    cases hr : isReservedRow i with
    | true =>
      cases i with
      | reserved => exact ⟨.refusedReserved, .noResult, nofun, rfl⟩
      | _ => cases hr
    | false =>
      obtain ⟨result, he⟩ := exec_eq_answer_ok hc hg hr s
      exact ⟨.ok, result, nofun, he⟩

theorem exec_faulted_keeps_fault {i : Instr} {s t : State} (hc : isConstruct i = false) (hf : s.fault = true)
    (h : exec i s = .next t) : t.fault = true ∧ t.faultInfo = s.faultInfo := by
  obtain ⟨_, _, -, he⟩ := exec_faulted hc hf
  rw [he] at h
  cases h
  exact ⟨hf, rfl⟩

/-- Everything CONSTRUCT can answer (45_receiver_commands.md R102). -/
theorem exec_construct_next {p c : Bool} {b : Handle} {z : Word} {pct : Byte} {ss : Word} {s t : State}
    (h : exec (.construct p c b z pct ss) s = .next t) :
    (s.hw.maxWords < z.toNat ∧ t = s.refuse .refusedOperand) ∨
    (z.toNat ≤ s.hw.maxWords ∧
      t = (s.constructed b z (selectPct c pct) (selectSample p ss)).answer .ok .noResult) := by
  rcases Nat.lt_or_ge s.hw.maxWords z.toNat with hz | hz
  · rw [exec_construct_refused hz] at h; cases h; exact .inl ⟨hz, rfl⟩
  · rw [exec_construct_accepted hz] at h; cases h; exact .inr ⟨hz, rfl⟩

/-- A second BoundsViolation cannot occur while `fault` is set. -/
theorem exec_faulted_reply {i : Instr} {s t : State} (hf : s.fault = true) (h : exec i s = .next t) (res : Result) :
    t.reply ≠ some ⟨.boundsViolation, res⟩ := by
  cases hc : isConstruct i with
  | true =>
    cases i with
    | construct =>
      obtain ⟨-, rfl⟩ | ⟨-, rfl⟩ := exec_construct_next h
      · nofun
      · nofun
    | _ => cases hc
  | false =>
    obtain ⟨status, result, hstatus, he⟩ := exec_faulted hc hf
    rw [he] at h
    cases h
    exact fun hreply => hstatus (Reply.mk.inj (Option.some.inj hreply)).1

/-- Leaving FAULTED takes power-on or CONSTRUCT. -/
theorem step_clears_fault {s t : State} (h : step s = .next t) (hs : s.fault = true) (ht : t.fault = false) :
    (∃ rest, s.inbox = .powerOn :: rest) ∨
    ∃ r rest i, s.inbox = .present r :: rest ∧ decode r = .ok i ∧ isConstruct i = true := by
  obtain ⟨-, rfl⟩ | ⟨_, _, _, _, -, -, rfl⟩ | ⟨rest, hin, -⟩ | ⟨r, rest, i, hin, hi, hx⟩ := step_next h
  · exact absurd hs (Bool.eq_false_iff.mp ht)
  · exact absurd hs (Bool.eq_false_iff.mp ht)
  · exact .inl ⟨rest, hin⟩
  · refine .inr ⟨r, rest, i, hin, hi, Bool.eq_true_of_not_eq_false fun hc => ?_⟩
    obtain ⟨hkept, -⟩ := exec_faulted_keeps_fault (s := { s with inbox := rest }) hc hs hx
    exact absurd hkept (Bool.eq_false_iff.mp ht)

end Sys2Proof.Machine

open Sys2Proof Sys2Proof.Machine

/-- Settles O15: while FAULTED an instruction other than CONSTRUCT only replies, so `fault` stays until CONSTRUCT or
power-on. -/
theorem faultedLeftOnlyByReset : Obligations.FaultedLeftOnlyByReset := by
  unfold Obligations.FaultedLeftOnlyByReset
  refine ⟨?whileFaulted, ?constructClears, fun _ _ => step_clears_fault⟩
  case whileFaulted =>
    intro i s t h hf
    refine ⟨fun hg => ?_, fun hc => exec_faulted_keeps_fault hc hf h, exec_faulted_reply hf h⟩
    rw [exec_gated_faulted hg hf] at h
    cases h
    rfl
  case constructClears => exact fun _ _ _ _ _ _ _ hz => ⟨_, exec_construct_accepted hz, rfl⟩

end

section
/-! PROOF. The causes of a BoundsViolation (60_exceptions.md R119): an instruction that sets `fault` has passed its gate, and
of the commands behind the gate only SYNCHRONIZE raises a word past the buffer and only PROCESS the underflow. -/

namespace Sys2Proof.Machine

/-! ### What the operations raise (20_memory.md R24, 43_frame_iterator.md R83) -/

theorem memRead_error_iff (s : State) (j : Nat) : memRead s j = .error (.word j) ↔ s.n.toNat ≤ j := by
  rcases Nat.lt_or_ge j s.n.toNat with hj | hj
  · exact iff_of_false (by rw [memRead_ok hj]; nofun) (Nat.not_le.mpr hj)
  · exact iff_of_true (memRead_error hj) hj

theorem maxFrames_underflow_iff (s : State) : maxFrames s = .error .underflow ↔ ¬ FramesFit s := by
  refine ⟨fun h hfit => ?_, maxFrames_underflow⟩
  rw [maxFrames_fit hfit] at h
  cases h

theorem not_framesFit_iff (s : State) : ¬ FramesFit s ↔ s.bitslip ≠ 0 ∧ 32 * s.n.toNat / 66 = 0 := by
  rw [FramesFit, not_or, not_not]

/-- PROCESS raises the underflow of MaxFrames and nothing else: the frames MaxFrames counts lie inside the buffer (R84). -/
theorem process_error {d : Bool} {s : State} {fi : FaultInfo} (h : process d s = .error fi) :
    fi = .underflow ∧ ¬ FramesFit s := by
  by_cases hfit : FramesFit s
  · rw [process_eq d hfit] at h
    cases h
  · have hmax : maxFrames s.beginProcess = .error .underflow := maxFrames_underflow hfit
    have hprocess : process d s = .error .underflow := bind_error_iff.mpr (.inl hmax)
    rw [hprocess] at h
    cases h
    exact ⟨rfl, hfit⟩

/-! ### Entering FAULTED -/

/-- The two commands that can set `fault`, each with its cause. -/
theorem commandBody_sets_fault {i : Instr} {s t : State} (hi : gatedCommand i = true) (h : commandBody i s = .next t)
    (hs : s.fault = false) (ht : t.fault = true) :
    (i = .synchronize ∧ ∃ j, t.faultInfo = .word j ∧ s.n.toNat ≤ j) ∨
    (isProcess i = true ∧ t.faultInfo = .underflow ∧ ¬ FramesFit s) := by
  have hchanged : t.fault ≠ s.fault := by rw [hs, ht]; nofun
  cases i with
  | synchronize =>
    obtain ⟨_, -, rfl⟩ | ⟨-, rfl⟩ | ⟨fi, herr, rfl⟩ := synchronizeBody_next h
    · exact absurd rfl hchanged
    · exact absurd rfl hchanged
    · obtain ⟨_, j, rfl, -, -, hj, -⟩ := search_error herr
      exact .inl ⟨rfl, j, rfl, hj⟩
  | process d =>
    obtain ⟨_, _, _, -, -, -, rfl⟩ | ⟨fi, herr, rfl⟩ := processBody_next h
    · exact absurd rfl hchanged
    · obtain ⟨rfl, hfit⟩ := process_error herr
      exact .inr ⟨rfl, rfl, hfit⟩
  | setBuffer => obtain ⟨-, rfl⟩ | ⟨-, rfl⟩ := setBufferBody_next h <;> exact absurd rfl hchanged
  | forceBitslip => obtain ⟨-, rfl⟩ | ⟨-, rfl⟩ := forceBitslipBody_next h <;> exact absurd rfl hchanged
  | isSynchronized | getBitslip | getPacketBuffer | getBer => cases h; exact absurd rfl hchanged
  | _ => cases hi

theorem exec_construct_keeps_unfaulted {p c : Bool} {b : Handle} {z : Word} {pct : Byte} {ss : Word} {s t : State}
    (hs : s.fault = false) (h : exec (.construct p c b z pct ss) s = .next t) : t.fault = false := by
  obtain ⟨-, rfl⟩ | ⟨-, rfl⟩ := exec_construct_next h
  · exact hs
  · rfl

/-- An instruction that sets `fault` is a command that passed its gate. -/
theorem exec_sets_fault {i : Instr} {s t : State} (h : exec i s = .next t) (hs : s.fault = false) (ht : t.fault = true) :
    gatedCommand i = true ∧ commandBody i s = .next t := by
  have hchanged : t.fault ≠ s.fault := by rw [hs, ht]; nofun
  cases hg : gatedCommand i with
  | true =>
    rw [exec_eq_gated hg] at h
    obtain ⟨-, rfl⟩ | ⟨-, -, rfl⟩ | ⟨-, -, hb⟩ := gated_next h
    · exact absurd rfl hchanged
    · exact absurd rfl hchanged
    · exact ⟨rfl, hb⟩
  | false =>
    cases hc : isConstruct i with
    | true =>
      cases i with
      | construct => exact absurd ht (Bool.eq_false_iff.mp (exec_construct_keeps_unfaulted hs h))
      | _ => cases hc
    | false =>
      obtain ⟨_, _, he⟩ := exec_eq_answer hc hg s
      rw [he] at h
      cases h
      exact absurd rfl hchanged

end Sys2Proof.Machine

open Sys2Proof Sys2Proof.Machine

/-- Settles O16: an instruction that sets `fault` is a command past its gate, and among those only the search's SyncRead and
MaxFrames raise. -/
theorem faultCauses : Obligations.FaultCauses := by
  unfold Obligations.FaultCauses
  refine ⟨memRead_error_iff, fun s => (maxFrames_underflow_iff s).trans (not_framesFit_iff s), ?causes⟩
  case causes =>
    intro i s t h hs ht
    obtain ⟨hg, hb⟩ := exec_sets_fault h hs ht
    rw [← not_framesFit_iff]
    exact commandBody_sets_fault hg hb hs ht

end

section
/-! PROOF. Decoding and encoding (30_encoding.md R39, R42, R43, R51 to R53): the decoder answers well-formed instructions only,
so RESERVED for a reserved word alone, and each instruction is what its own bits decode to. -/

namespace Sys2Proof

open Machine Laws.RoundTrip

/-! ### What the decoder answers -/

/-- A word that is not reserved has one of the twelve opcodes of R52. -/
theorem opcodeOf_of_not_isReserved {cmd : Byte} (h : ¬ isReserved cmd = true) :
    1 ≤ (opcodeOf cmd).toNat ∧ (opcodeOf cmd).toNat ≤ 12 := by
  rw [isReserved_iff, ReservedWord] at h
  rw [toNat_opcodeOf]
  have := cmd.isLt
  omega

theorem decodeCommand_wf {cmd : Byte} {a b : BitVec 64} {c : Byte} {d : Word} {i : Instr}
    (h : decodeCommand cmd a b c d = .ok i) : i.wf = true := by
  unfold decodeCommand at h
  split at h
  · next hreserved => cases h; exact hreserved
  · next hreserved =>
    obtain ⟨hlow, hhigh⟩ := opcodeOf_of_not_isReserved hreserved
    split at h
    case h_13 => grind
    case h_1 | h_2 | h_3 =>
      split at h
      · cases h; rfl
      · cases h
    all_goals cases h; rfl

theorem controlRow_wf {n : BtfName} {b : Byte} (hn : btfName b = n) (x : BitVec 56) : (controlRow n b x).wf = true := by
  cases n with
  | other => exact beq_iff_eq.mpr hn
  | _ => rfl

theorem decodeFrame_wf (f : FrameWord) : (decodeFrame f).wf = true := by
  unfold decodeFrame
  split
  · rfl
  · exact controlRow_wf rfl _
  · rfl
  · rfl

theorem decode_wf {r : Request} {i : Instr} (h : decode r = .ok i) : i.wf = true := by
  cases r with
  | command => exact decodeCommand_wf h
  | frame f => cases h; exact decodeFrame_wf f
  | event | extension | statistics => cases h; rfl

/-! ### What an encoding decodes to -/

theorem decode_encode {i : Instr} (hi : i.wf = true) : decode (encode i) = .ok i := by
  cases i with
  | construct => exact construct _ _ _ _ _ _ hi
  | setBuffer => exact setBuffer _ _ hi
  | forceBitslip => exact forceBitslip _ hi
  | synchronize => exact synchronize hi
  | isSynchronized => exact isSynchronized hi
  | getBitslip => exact getBitslip hi
  | process => exact process _ hi
  | getPacketBuffer => exact getPacketBuffer hi
  | getBer => exact getBer hi
  | decodeEvent => exact decodeEvent _ hi
  | decodeStatistics => exact decodeStatistics _ _ hi
  | decodeExtension => exact decodeExtension _ hi
  | reserved => exact reserved _ hi
  | data => exact data _ hi
  | ctrlIdle => exact ctrlIdle _ hi
  | ctrlNfc => exact ctrlNfc _ hi
  | ctrlUfc => exact ctrlUfc _ hi
  | ctrlSep => exact ctrlSep _ hi
  | ctrlSep7 => exact ctrlSep7 _ hi
  | ctrlK0 => exact ctrlK0 _ hi
  | ctrlK1 => exact ctrlK1 _ hi
  | ctrlK2 => exact ctrlK2 _ hi
  | ctrlK3 => exact ctrlK3 _ hi
  | ctrlK4 => exact ctrlK4 _ hi
  | ctrlK5 => exact ctrlK5 _ hi
  | ctrlK6 => exact ctrlK6 _ hi
  | ctrlK7 => exact ctrlK7 _ hi
  | ctrlK8 => exact ctrlK8 _ hi
  | ctrlRes => exact ctrlRes _ hi
  | ctrlOther => exact ctrlOther _ _ hi
  | error00 => exact error00 _ hi
  | error11 => exact error11 _ hi
  | eventPacket => exact eventPacket _ hi
  | extensionPacket => exact extensionPacket _ hi
  | statisticsPacket => exact statisticsPacket _ hi

theorem decodeFrame_of_encode {i : Instr} {f : FrameWord} (hf : encode i = .frame f) (hi : i.wf = true) :
    decodeFrame f = i := by
  have hdecode := decode_encode hi
  rw [hf] at hdecode
  exact Except.ok.inj hdecode

/-! ### The Block Type Field (R42, R43) -/

/-- A value outside the table has the name `other`. -/
theorem btfName_of_not_mem {b : Byte} (hb : b ∉ btfTable.map Prod.fst) : btfName b = .other := by
  have hnone : btfTable.find? (fun row => row.1 == b) = none :=
    List.find?_eq_none.mpr fun row hrow heq => hb (beq_iff_eq.mp heq ▸ List.mem_map_of_mem hrow)
  rw [btfName, hnone]

/-- A value with a name other than `other` is that name's value. -/
theorem btfCode_btfName {b : Byte} (hb : btfName b ≠ .other) : btfCode (btfName b) = b := by
  have hrows : ∀ row ∈ btfTable, btfCode row.2 = row.1 := by decide
  unfold btfName at hb ⊢
  split at hb
  · next row hfind =>
    exact (hrows row (List.mem_of_find?_eq_some hfind)).trans (beq_iff_eq.mp (List.find?_some hfind :))
  · exact absurd rfl hb

end Sys2Proof

open Sys2Proof Sys2Proof.Machine

/-- Settles O1: the round trip of each constructor, and the cases of the decoder. -/
theorem decodeEncodeAgree : Obligations.DecodeEncodeAgree := by
  unfold Obligations.DecodeEncodeAgree
  exact ⟨fun _ => decode_encode, fun _ _ => decode_wf⟩

/-- Settles O2: what decodes to RESERVED is a well-formed RESERVED, which holds a reserved word. -/
theorem reservedWordsDecode : Obligations.ReservedWordsDecode := by
  unfold Obligations.ReservedWordsDecode
  exact fun cmd a b c d => ⟨fun h => (isReserved_iff cmd).mp (decode_wf h), fun h => decode_reservedWord h a b c d⟩

/-- Settles O3: the decoder computes on each of the sixteen words; only a narrow operand asks its bound. -/
theorem knownWordsDecode : Obligations.KnownWordsDecode := by
  unfold Obligations.KnownWordsDecode
  intro a b c d
  exact ⟨fun hb => ⟨if_pos hb, if_pos hb, if_pos hb, if_pos hb, if_pos hb⟩, fun ha => if_pos ha,
    rfl, rfl, rfl, rfl, rfl, rfl, rfl, rfl, rfl, rfl⟩

/-- Settles O4: each frame word is the encoding of its row, and a BTF outside the table is `other`'s. -/
theorem frameWordsDecode : Obligations.FrameWordsDecode := by
  unfold Obligations.FrameWordsDecode
  intro d b x
  refine ⟨decodeFrame_of_encode rfl rfl, decodeFrame_of_encode rfl rfl, decodeFrame_of_encode rfl rfl,
    decodeFrame_of_encode rfl rfl, decodeFrame_of_encode rfl rfl, decodeFrame_of_encode rfl rfl,
    decodeFrame_of_encode rfl rfl, decodeFrame_of_encode rfl rfl, decodeFrame_of_encode rfl rfl,
    decodeFrame_of_encode rfl rfl, decodeFrame_of_encode rfl rfl, decodeFrame_of_encode rfl rfl,
    decodeFrame_of_encode rfl rfl, decodeFrame_of_encode rfl rfl, decodeFrame_of_encode rfl rfl,
    decodeFrame_of_encode rfl rfl, decodeFrame_of_encode rfl rfl, decodeFrame_of_encode rfl rfl, fun hb => ?_⟩
  exact decodeFrame_of_encode rfl (beq_iff_eq.mpr (btfName_of_not_mem hb))

end

section
/-! PROOF. The packet layouts (30_encoding.md R44, R47, R48): the decoders read no unused bit, a packet's bits give back its
fields, and has_valid_parity looks at the stored parity bits alone (44_packet_decoders.md R95). -/

namespace Sys2Proof.Machine

/-! ### Bits no field reads -/

/-- The two values agree from bit `k` up. -/
def AgreeFrom {w : Nat} (k : Nat) (x y : BitVec w) : Prop := ∀ i, k ≤ i → x.getLsbD i = y.getLsbD i

theorem AgreeFrom.slice {w k : Nat} {x y : BitVec w} (h : AgreeFrom k x y) {lo : Nat} (hlo : k ≤ lo) (len : Nat) :
    x.extractLsb' lo len = y.extractLsb' lo len := by
  refine BitVec.eq_of_getLsbD_eq fun i hi => ?_
  rw [BitVec.getLsbD_extractLsb', BitVec.getLsbD_extractLsb', h _ (hlo.trans (Nat.le_add_right lo i))]

/-- Other low bits below a value's own high part leave the bits above them. -/
theorem getLsbD_replace_low {w k m : Nat} (hw : w = m + k) (x : BitVec w) (u : BitVec k) {i : Nat} (hi : k ≤ i) :
    (x.extractLsb' k m ++ u).getLsbD i = x.getLsbD i := by
  have hback : k + (i - k) = i := Nat.add_sub_cancel' hi
  rw [BitVec.getLsbD_append, if_neg (Nat.not_lt.mpr hi), BitVec.getLsbD_extractLsb', hback]
  rcases Nat.lt_or_ge i (m + k) with hin | hout
  · rw [decide_eq_true (by omega), Bool.true_and]
  · rw [BitVec.getLsbD_of_ge x i (hw ▸ hout), Bool.and_false]

theorem AgreeFrom.append {w k : Nat} {x y : BitVec w} (h : AgreeFrom k x y) {v : Nat} (z : BitVec v) :
    AgreeFrom k (z ++ x) (z ++ y) := by
  intro i hi
  rw [BitVec.getLsbD_append, BitVec.getLsbD_append, h i hi]

theorem decodeEventPayload_congr {d e : Payload} (h : AgreeFrom 16 d e) : decodeEventPayload d = decodeEventPayload e := by
  simp (disch := decide) only [decodeEventPayload, eventRecord, eventOfBits, hasValidParity, h.slice, h _]

theorem decodeExtensionPayload_congr {d e : Payload} (h : AgreeFrom 16 d e) :
    decodeExtensionPayload d = decodeExtensionPayload e := by
  simp (disch := decide) only [decodeExtensionPayload, extensionRecord, extensionOfBits, h.slice, h _]

theorem decodeStatisticsPayloads_congr (d1 : Payload) {d2 e2 : Payload} (h : AgreeFrom 32 d2 e2) :
    decodeStatisticsPayloads d1 d2 = decodeStatisticsPayloads d1 e2 := by
  simp (disch := decide) only [decodeStatisticsPayloads, statisticsRecord, statisticsOfBits, (h.append d1).slice]

/-! ### A packet's bits at its decoder -/

theorem decodeExtensionPayload_extensionToBits (p : ExtensionPacket) :
    decodeExtensionPayload (extensionToBits p) = extensionRecord p := by
  have hdecode := Laws.RoundTrip.extensionPacket p rfl
  have hfields : extensionOfBits (extensionToBits p) = p := Instr.extensionPacket.inj (Except.ok.inj hdecode)
  rw [decodeExtensionPayload, hfields]

/-- The statistics decoder takes the 128 bits as two payloads (R97). -/
theorem decodeStatisticsPayloads_statisticsToBits (p : StatisticsPacket) :
    decodeStatisticsPayloads ((statisticsToBits p).extractLsb' 64 64) ((statisticsToBits p).extractLsb' 0 64) =
      statisticsRecord p := by
  have hdecode := Laws.RoundTrip.statisticsPacket p rfl
  have hfields : statisticsOfBits (statisticsToBits p) = p := Instr.statisticsPacket.inj (Except.ok.inj hdecode)
  have hhalves : (statisticsToBits p).extractLsb' 64 64 ++ (statisticsToBits p).extractLsb' 0 64 = statisticsToBits p :=
    (BitVec.extractLsb'_append_extractLsb'_eq_extractLsb' (start₁ := 0) (len₁ := 64) rfl).trans BitVec.extractLsb'_eq_self
  rw [decodeStatisticsPayloads, hhalves, hfields]

end Sys2Proof.Machine

open Sys2Proof Sys2Proof.Machine

/-- Settles O50: the flag's formula, a packet whose channel alone has an odd bit, and one whose combined bit alone is set. -/
theorem validParityIsFromStoredBits : Obligations.ValidParityIsFromStoredBits := by
  unfold Obligations.ValidParityIsFromStoredBits
  exact ⟨fun _ => rfl, ⟨0x1000000000000000, by decide⟩, ⟨0x10000, by decide⟩⟩

/-- Settles O54: each row's record is its decoder's, since a packet's bits give back its fields. -/
theorem packetRowsComplete : Obligations.PacketRowsComplete := by
  unfold Obligations.PacketRowsComplete
  intro p q x s
  rw [decodeEventPayload_eventToBits, decodeStatisticsPayloads_statisticsToBits, decodeExtensionPayload_extensionToBits]
  exact ⟨rfl, rfl, rfl⟩

/-- Settles O55: every field of the three layouts lies above the unused bits. -/
theorem unusedBitsIgnored : Obligations.UnusedBitsIgnored := by
  unfold Obligations.UnusedBitsIgnored
  intro d d1 d2 u v
  have hlow : AgreeFrom 16 (d.extractLsb' 16 48 ++ u) d := fun _ => getLsbD_replace_low (m := 48) (k := 16) rfl d u
  have hstatistics : AgreeFrom 32 (d2.extractLsb' 32 32 ++ v) d2 := fun _ =>
    getLsbD_replace_low (m := 32) (k := 32) rfl d2 v
  exact ⟨decodeEventPayload_congr hlow, decodeExtensionPayload_congr hlow, decodeStatisticsPayloads_congr d1 hstatistics⟩

end

section
/-! PROOF. The frame rows (30_encoding.md R39, R42, R43): presented alone, a frame word answers its record and writes nothing
(log 7); PROCESS's loop (43_frame_iterator.md R85) is what the rows of its frames answer, one after another. -/

namespace Sys2Proof.Machine

/-! ### A frame word at its row (R80, R81, R90) -/

theorem exec_controlRow {n : BtfName} {b : Byte} (hb : n ≠ .other → btfCode n = b) (x : BitVec 56) (s : State) :
    exec (controlRow n b x) s = controlStep b x s := by
  cases n with
  | other => rfl
  | _ => rw [← hb nofun]; rfl

theorem exec_decodeControl (b : Byte) (x : BitVec 56) (s : State) :
    exec (decodeControl (b ++ x)) s = controlStep b x s := by
  rw [Laws.RoundTrip.decodeControl_append, exec_controlRow btfCode_btfName]

/-- A payload is its BTF and the 56 bits below it (R42). -/
theorem btf_append_rest (d : Payload) : (d.extractLsb' 56 8 ++ d.extractLsb' 0 56 : BitVec (8 + 56)) = d :=
  (BitVec.extractLsb'_append_extractLsb'_eq_extractLsb' (start₁ := 0) (len₁ := 56) rfl).trans BitVec.extractLsb'_eq_self

theorem exec_decodeFrame_of_encode {i : Instr} {f : FrameWord} (hf : encode i = .frame f) (hi : i.wf = true) (s : State) :
    exec (decodeFrame f) s = exec i s := by
  rw [decodeFrame_of_encode hf hi]

/-- The row of a frame word answers the record of its header's class. -/
theorem exec_decodeFrame (sync : BitVec 2) (d : Payload) (s : State) :
    exec (decodeFrame (sync ++ d)) s = frameStep (classify sync) d s := by
  have headers : ∀ h : BitVec 2, h = 0b00 ∨ h = 0b01 ∨ h = 0b10 ∨ h = 0b11 := by decide
  obtain rfl | rfl | rfl | rfl := headers sync
  · exact exec_decodeFrame_of_encode (i := .error00 d) rfl rfl s
  · exact exec_decodeFrame_of_encode (i := .data d) rfl rfl s
  · rw [← btf_append_rest d]
    exact (congrArg (exec · s) (Laws.RoundTrip.decode_controlFrame _ _)).trans (exec_decodeControl _ _ s)
  · exact exec_decodeFrame_of_encode (i := .error11 d) rfl rfl s

/-- The class column of R42's table. -/
theorem btfClass_btfName : ∀ b : Byte, btfClass (btfName b) =
    if b = 0x78 then .idle else if b = 0xAA then .nfc else if b = 0x2D then .ufc else if b = 0x1E then .sep
    else if b = 0xE1 then .sep7 else .generic := by decide

/-! ### The rows and the loop (R85 to R87) -/

/-- What a frame's row answers is what the loop body does with its record. -/
theorem takeFrame_eq_acceptFrame {d : Bool} {k : Nat} {sync : BitVec 2} {r : FrameRecord} (hr : r.cls = classify sync)
    (s : State) : takeFrame d k (sync ++ r.payload) s = acceptFrame d k r s := by
  have hskips : (skipsRecord s.hw.frame0Policy d k r = true) =
      ((k = 0 ∧ s.hw.frame0Policy = .discard) ∨ (d = true ∧ r.cls = .control)) := by
    simp only [skipsRecord, Bool.or_eq_true, Bool.and_eq_true, beq_iff_eq]
  rw [takeFrame, exec_decodeFrame, frameStep_eq, acceptFrame_eq, ← hr]
  simp only [hskips]

/-- A frame's class is its header's, whatever its payload is descrambled to (R80, R81). -/
theorem nextFrame_header {s : State} {k : Nat} {r : FrameRecord} (h : nextFrame s k = .ok r) :
    ∃ sync, syncRead s s.bitslip.toNat k = .ok sync ∧ r.cls = classify (sync.setWidth 2) := by
  obtain ⟨sync, hsync, h⟩ := bind_ok_iff.mp h
  obtain ⟨raw, -, h⟩ := bind_ok_iff.mp h
  refine ⟨sync, hsync, ?_⟩
  cases k with
  | zero => cases h; rfl
  | succ j =>
    obtain ⟨previous, -, h⟩ := bind_ok_iff.mp h
    cases h
    rfl

/-- The words of `m` frames from frame `k` on: each header as SyncRead gives it, each payload after descrambling. -/
def ReadsAsFrames (s : State) (k m : Nat) (fs : List FrameWord) : Prop :=
  fs.length = m ∧ ∀ j, j < m → ∃ sync r, syncRead s s.bitslip.toNat (k + j) = .ok sync ∧
    nextFrame s (k + j) = .ok r ∧ fs[j]? = some (sync.setWidth 2 ++ r.payload)

theorem ReadsAsFrames.cons {s : State} {k m : Nat} {fs : List FrameWord} {sync : Byte} {r : FrameRecord}
    (hsync : syncRead s s.bitslip.toNat k = .ok sync) (hr : nextFrame s k = .ok r) (h : ReadsAsFrames s (k + 1) m fs) :
    ReadsAsFrames s k (m + 1) ((sync.setWidth 2 ++ r.payload) :: fs) := by
  obtain ⟨hlen, hrest⟩ := h
  refine ⟨congrArg (· + 1) hlen, fun j hj => ?_⟩
  cases j with
  | zero => exact ⟨sync, r, hsync, hr, rfl⟩
  | succ j =>
    have hnext := hrest j (Nat.lt_of_succ_lt_succ hj)
    rwa [Nat.add_assoc, Nat.add_comm 1 j] at hnext

/-- The loop body writes nothing the reads look at. -/
theorem readsAsFrames_acceptFrame (d : Bool) (i : Nat) (r : FrameRecord) (s : State) :
    ReadsAsFrames (acceptFrame d i r s) = ReadsAsFrames s := by
  rw [acceptFrame_eq]
  rfl

theorem processLoop_runs_rows {d : Bool} {m k : Nat} {s u : State} (h : processLoop d m k s = .ok u) :
    ∃ fs, ReadsAsFrames s k m fs ∧ u = takeFrames d k fs s := by
  induction m generalizing k s with
  | zero => cases h; exact ⟨[], ⟨rfl, nofun⟩, rfl⟩
  | succ m ih =>
    obtain ⟨r, hr, h⟩ := bind_ok_iff.mp h
    obtain ⟨fs, hfs, rfl⟩ := ih h
    obtain ⟨sync, hsync, hcls⟩ := nextFrame_header hr
    rw [readsAsFrames_acceptFrame] at hfs
    refine ⟨_, hfs.cons hsync hr, ?_⟩
    rw [takeFrames, takeFrame_eq_acceptFrame hcls]

end Sys2Proof.Machine

open Sys2Proof Sys2Proof.Machine

/-- Settles O44: the row's record is its payload's, of class data. -/
theorem dataFrameCompletes : Obligations.DataFrameCompletes := by
  unfold Obligations.DataFrameCompletes
  exact frameStep_eq .data

/-- Settles O45: each row's BTF is its name's value in the table. -/
theorem controlFramesComplete : Obligations.ControlFramesComplete := by
  unfold Obligations.ControlFramesComplete
  intro x s
  refine ⟨controlStep_eq 0x78 x s, controlStep_eq 0xAA x s, controlStep_eq 0x2D x s, controlStep_eq 0x1E x s,
    controlStep_eq 0xE1 x s, controlStep_eq 0xD2 x s, controlStep_eq 0x99 x s, controlStep_eq 0x55 x s,
    controlStep_eq 0xB4 x s, controlStep_eq 0xCC x s, controlStep_eq 0x66 x s, controlStep_eq 0x33 x s,
    controlStep_eq 0x4B x s, controlStep_eq 0x87 x s, controlStep_eq 0xFF x s, fun b hb => ?_⟩
  rw [← hb]
  exact controlStep_eq b x s

/-- Settles O46: both rows' records are their payloads', of class error. -/
theorem errorFramesComplete : Obligations.ErrorFramesComplete := by
  unfold Obligations.ErrorFramesComplete
  exact fun x s => ⟨frameStep_eq .error x s, frameStep_eq .error x s⟩

/-- Settles O47: header 10 gives the control row of the payload's BTF, whose kind is that BTF's name. -/
theorem controlClassByBtf : Obligations.ControlClassByBtf := by
  unfold Obligations.ControlClassByBtf
  exact fun b x s => ⟨btfName b, (exec_decodeFrame 0b10 (b ++ x) s).trans (controlStep_eq b x s), btfClass_btfName b⟩

/-- Settles O43, by induction on the number of frames: each frame's row answers what the loop body takes in. -/
theorem processRunsFrameRows : Obligations.ProcessRunsFrameRows := by
  unfold Obligations.ProcessRunsFrameRows
  intro d s u m k h
  obtain ⟨fs, ⟨hlen, hread⟩, hu⟩ := processLoop_runs_rows h
  exact ⟨fs, hlen, hread, hu⟩

end

section
/-! PROOF. What an instruction can leave, said once: every state that exec answers comes of one of nine effects, and from them
follow who writes what (10_state.md R10 to R18, 20_memory.md R25) and that every instruction completes. -/

namespace Sys2Proof.Machine

/-! ### The bodies of the gated commands (45_receiver_commands.md R103 to R110) -/

theorem setBufferBody_accepted {h : Handle} {z : Word} {s : State} (hz : z.toNat ≤ s.hw.maxWords) :
    setBufferBody h z s = .next ((s.attach h z).answer .ok .noResult) :=
  if_neg (Nat.not_lt.mpr hz)

theorem setBufferBody_refused {h : Handle} {z : Word} {s : State} (hz : s.hw.maxWords < z.toNat) :
    setBufferBody h z s = .next (s.refuse .refusedOperand) :=
  if_pos hz

theorem forceBitslipBody_accepted {slip : Byte} {s : State} (hslip : slip.toNat < 64) :
    forceBitslipBody slip s = .next ((s.setSlip (slip.setWidth 6)).answer .ok .noResult) :=
  if_neg (Nat.not_le.mpr hslip)

theorem forceBitslipBody_refused {slip : Byte} {s : State} (hslip : 64 ≤ slip.toNat) :
    forceBitslipBody slip s = .next (s.refuse .refusedOperand) :=
  if_pos hslip

/-- PROCESS's writes, where max_frames does not underflow (43_frame_iterator.md R85). -/
def State.processed (s : State) (d : Bool) : State :=
  { s with packets := processedPackets s d, berCounter := processedBer s }

theorem processBody_fit {s : State} (hfit : FramesFit s) (d : Bool) :
    processBody d s = .next ((s.processed d).answer .ok .noResult) := by
  rw [processBody, process_eq d hfit]
  rfl

theorem processBody_underflow {s : State} (hfit : ¬ FramesFit s) (d : Bool) :
    processBody d s = .next (s.abandonProcess.raiseBounds .underflow) := by
  have hraise : process d s = .error .underflow := bind_error_iff.mpr (.inl (maxFrames_underflow hfit))
  rw [processBody, hraise]

/-! ### The effects -/

/-- R122's reasons for a refusal: the word, the gate, the operand. -/
def Refusable (s : State) (i : Instr) : Prop :=
  isReservedRow i = true ∨ (gatedCommand i = true ∧ ¬ Ready s) ∨ OperandOutOfRange s i

/-- What an instruction can leave of a state: a refusal or a reply alone, or what its command writes. -/
inductive Effect (s : State) : Instr → State → Prop where
  | refused (i : Instr) (status : Status) (hrefusable : Refusable s i) : Effect s i (s.refuse status)
  | replied (i : Instr) (result : Result) : Effect s i (s.answer .ok result)
  | constructed (p c : Bool) (h : Handle) (z : Word) (pct : Byte) (ss : Word) (hz : z.toNat ≤ s.hw.maxWords) :
      Effect s (.construct p c h z pct ss)
        ((s.constructed h z (selectPct c pct) (selectSample p ss)).answer .ok .noResult)
  | attached (hs : Ready s) (h : Handle) (z : Word) (hz : z.toNat ≤ s.hw.maxWords) :
      Effect s (.setBuffer h z) ((s.attach h z).answer .ok .noResult)
  | slipForced (hs : Ready s) (slip : Byte) (hslip : slip.toNat < 64) :
      Effect s (.forceBitslip slip) ((s.setSlip (slip.setWidth 6)).answer .ok .noResult)
  | slipAccepted (hs : Ready s) (c : Nat) (hsearch : search s = .ok (some c)) :
      Effect s .synchronize ((s.acceptSlip c).answer .ok (.flag true))
  | searchRaised (hs : Ready s) (fi : FaultInfo) (hsearch : search s = .error fi) :
      Effect s .synchronize (s.raiseBounds fi)
  | processed (hs : Ready s) (d : Bool) (hfit : FramesFit s) :
      Effect s (.process d) ((s.processed d).answer .ok .noResult)
  | processRaised (hs : Ready s) (d : Bool) (hfit : ¬ FramesFit s) :
      Effect s (.process d) (s.abandonProcess.raiseBounds .underflow)

theorem commandBody_effect {i : Instr} {s : State} (hi : gatedCommand i = true) (hs : Ready s) :
    ∃ t, commandBody i s = .next t ∧ Effect s i t := by
  cases i with
  | setBuffer h z =>
    rcases Nat.lt_or_ge s.hw.maxWords z.toNat with hz | hz
    · exact ⟨_, setBufferBody_refused hz, .refused _ _ (.inr (.inr hz))⟩
    · exact ⟨_, setBufferBody_accepted hz, .attached hs h z hz⟩
  | forceBitslip slip =>
    rcases Nat.lt_or_ge slip.toNat 64 with hslip | hslip
    · exact ⟨_, forceBitslipBody_accepted hslip, .slipForced hs slip hslip⟩
    · exact ⟨_, forceBitslipBody_refused hslip, .refused _ _ (.inr (.inr hslip))⟩
  | synchronize =>
    match hsearch : search s with
    | .ok (some c) => exact ⟨_, synchronizeBody_some hsearch, .slipAccepted hs c hsearch⟩
    | .ok none => exact ⟨_, synchronizeBody_none hsearch, .replied _ _⟩
    | .error fi => exact ⟨_, synchronizeBody_error hsearch, .searchRaised hs fi hsearch⟩
  | process d =>
    by_cases hfit : FramesFit s
    · exact ⟨_, processBody_fit hfit d, .processed hs d hfit⟩
    · exact ⟨_, processBody_underflow hfit d, .processRaised hs d hfit⟩
  | isSynchronized | getBitslip | getPacketBuffer | getBer => exact ⟨_, rfl, .replied _ _⟩
  | _ => cases hi

theorem exec_effect (i : Instr) (s : State) : ∃ t, exec i s = .next t ∧ Effect s i t := by
  cases hg : gatedCommand i with
  | true =>
    cases hf : s.fault with
    | true => exact ⟨_, exec_gated_faulted hg hf, .refused _ _ (.inr (.inl ⟨hg, fun hs => nomatch hs.2.symm.trans hf⟩))⟩
    | false =>
      cases hc : s.configured with
      | true =>
        rw [exec_ready hg ⟨hc, hf⟩]
        exact commandBody_effect hg ⟨hc, hf⟩
      | false =>
        exact ⟨_, (refusedUntilReady_of_gated hg s).2 hf hc,
          .refused _ _ (.inr (.inl ⟨hg, fun hs => nomatch hs.1.symm.trans hc⟩))⟩
  | false =>
    cases i with
    | construct p c h z pct ss =>
      rcases Nat.lt_or_ge s.hw.maxWords z.toNat with hz | hz
      · exact ⟨_, exec_construct_refused hz, .refused _ _ (.inr (.inr hz))⟩
      · exact ⟨_, exec_construct_accepted hz, .constructed p c h z pct ss hz⟩
    | reserved => exact ⟨_, rfl, .refused _ _ (.inl rfl)⟩
    | setBuffer | forceBitslip | synchronize | isSynchronized | getBitslip | process | getPacketBuffer | getBer => cases hg
    | _ => exact ⟨_, rfl, .replied _ _⟩

theorem effect_of_exec {i : Instr} {s t : State} (h : exec i s = .next t) : Effect s i t := by
  obtain ⟨u, hu, heffect⟩ := exec_effect i s
  rw [h] at hu
  cases hu
  exact heffect

/-! ### What no effect changes -/

theorem Effect.replies {i : Instr} {s t : State} (h : Effect s i t) : t.reply ≠ none := by
  cases h <;> nofun

theorem Effect.keeps_host {i : Instr} {s t : State} (h : Effect s i t) :
    t.mem = s.mem ∧ t.hw = s.hw ∧ t.inbox = s.inbox := by
  cases h <;> exact ⟨rfl, rfl, rfl⟩

theorem Effect.keeps_settings {i : Instr} {s t : State} (h : Effect s i t) (hc : isConstruct i = false) :
    t.configured = s.configured ∧ t.sampleSize = s.sampleSize ∧ t.threshold = s.threshold := by
  cases h with
  | constructed => cases hc
  | _ => exact ⟨rfl, rfl, rfl⟩

theorem Effect.keeps_buffer {i : Instr} {s t : State} (h : Effect s i t) (hc : isConstruct i = false)
    (hb : isSetBuffer i = false) : t.buf = s.buf ∧ t.n = s.n := by
  cases h with
  | constructed => cases hc
  | attached => cases hb
  | _ => exact ⟨rfl, rfl⟩

theorem Effect.keeps_bitslip {i : Instr} {s t : State} (h : Effect s i t) (hc : isConstruct i = false)
    (hb : isForceBitslip i = false) (hi : i ≠ .synchronize) : t.bitslip = s.bitslip := by
  cases h with
  | constructed => cases hc
  | slipForced => cases hb
  | slipAccepted => exact absurd rfl hi
  | _ => rfl

/-- CONSTRUCT alone clears `synced`, and SYNCHRONIZE alone sets it (10_state.md R12). -/
theorem Effect.synced_eq {i : Instr} {s t : State} (h : Effect s i t) (hc : isConstruct i = false) :
    t.synced = s.synced ∨ (i = .synchronize ∧ t.synced = true) := by
  cases h with
  | constructed => cases hc
  | slipAccepted => exact .inr ⟨rfl, rfl⟩
  | _ => exact .inl rfl

theorem Effect.keeps_fault {i : Instr} {s t : State} (h : Effect s i t) (hc : isConstruct i = false)
    (hi : i ≠ .synchronize) (hp : isProcess i = false) : t.fault = s.fault ∧ t.faultInfo = s.faultInfo := by
  cases h with
  | constructed => cases hc
  | searchRaised => exact absurd rfl hi
  | processRaised => cases hp
  | _ => exact ⟨rfl, rfl⟩

theorem Effect.keeps_outputs {i : Instr} {s t : State} (h : Effect s i t) (hc : isConstruct i = false)
    (hp : isProcess i = false) :
    t.freeCount = s.freeCount ∧ t.berCounter = s.berCounter ∧ t.packets = s.packets := by
  cases h with
  | constructed => cases hc
  | processed | processRaised => cases hp
  | _ => exact ⟨rfl, rfl, rfl⟩

/-! ### What stops a step -/

/-- A step that stops was at a host write to a word no buffer has, or at bits that do not decode (log 14, log 1). -/
theorem perform_stops (m : HostMove) (s : State) :
    (∀ f, perform m s = .fault f → ∃ h i w, m = .store h i w ∧ 2 ^ 32 ≤ i) ∧
    (∀ e, perform m s = .refused e → ∃ r why, m = .present r ∧ decode r = .error why ∧ e = .undecodable why) := by
  cases m with
  | store h i w =>
    rcases Nat.lt_or_ge i (2 ^ 32) with hi | hi
    · have hnext : perform (.store h i w) s = .next { s with mem := writeWord s.mem h i w } := if_pos hi
      rw [hnext]
      exact ⟨nofun, nofun⟩
    · have hfault : perform (.store h i w) s = .fault (.noSuchWord i) := if_neg (Nat.not_lt.mpr hi)
      rw [hfault]
      exact ⟨fun _ _ => ⟨h, i, w, rfl, hi⟩, nofun⟩
  | powerOn => exact ⟨nofun, nofun⟩
  | present r =>
    match hdecode : decode r with
    | .ok i =>
      obtain ⟨t, ht, -⟩ := exec_effect i s
      rw [perform, hdecode]
      simp only [ht]
      exact ⟨nofun, nofun⟩
    | .error why =>
      rw [perform, hdecode]
      exact ⟨nofun, fun e he => ⟨r, why, rfl, hdecode, by cases he; rfl⟩⟩

theorem step_nil {s : State} (h : s.inbox = []) : step s = .next s := by rw [step, h]

theorem step_cons {s : State} {m : HostMove} {rest : List HostMove} (h : s.inbox = m :: rest) :
    step s = perform m { s with inbox := rest } := by rw [step, h]

theorem step_present {s : State} {r : Request} {rest : List HostMove} {i : Instr} (h : s.inbox = .present r :: rest)
    (hr : decode r = .ok i) : step s = exec i { s with inbox := rest } := by
  rw [step_cons h, perform, hr]

end Sys2Proof.Machine

open Sys2Proof Sys2Proof.Machine

/-- Settles O5: the step performs the move, and a request that decodes is run. -/
theorem stepRunsDecodedInstruction : Obligations.StepRunsDecodedInstruction := by
  unfold Obligations.StepRunsDecodedInstruction
  exact fun _ _ _ _ => step_present

/-- Settles O6: every instruction has an effect, and each effect leaves a reply. -/
theorem everyInstructionCompletes : Obligations.EveryInstructionCompletes := by
  unfold Obligations.EveryInstructionCompletes
  intro i s
  obtain ⟨t, ht, heffect⟩ := exec_effect i s
  exact ⟨t, ht, heffect.replies⟩

/-- Settles O7: instructions complete, so only the host's moves can stop a step. -/
theorem stepStopsOnlyOnTheHost : Obligations.StepStopsOnlyOnTheHost := by
  unfold Obligations.StepStopsOnlyOnTheHost
  intro s
  match hin : s.inbox with
  | [] =>
    rw [step_nil hin]
    exact ⟨nofun, nofun⟩
  | m :: rest =>
    rw [step_cons hin]
    obtain ⟨hfault, hrefused⟩ := perform_stops m { s with inbox := rest }
    refine ⟨fun f hf => ?_, fun e he => ?_⟩
    · obtain ⟨h, i, w, rfl, hi⟩ := hfault f hf
      exact ⟨h, i, w, rest, rfl, hi⟩
    · obtain ⟨r, why, rfl, hdecode, heq⟩ := hrefused e he
      exact ⟨r, rest, why, rfl, hdecode, heq⟩

/-- Settles O13: RESERVED's arm is the refusal. -/
theorem reservedRefused : Obligations.ReservedRefused := by
  unfold Obligations.ReservedRefused
  exact fun _ _ => rfl

/-- Settles O24, by the effects: each writes the elements of its own command. -/
theorem registerWriters : Obligations.RegisterWriters := by
  unfold Obligations.RegisterWriters
  intro i s t h
  have heffect := effect_of_exec h
  obtain ⟨hmem, hhw, hinbox⟩ := heffect.keeps_host
  exact ⟨hmem, hhw, hinbox, heffect.keeps_settings, heffect.keeps_buffer, heffect.keeps_bitslip,
    fun hc hi => (heffect.synced_eq hc).resolve_right fun hsync => hi hsync.1, heffect.keeps_fault, heffect.keeps_outputs⟩

/-- Settles O25: no effect writes memory. -/
theorem bufferNeverWritten : Obligations.BufferNeverWritten := by
  unfold Obligations.BufferNeverWritten
  intro i s t h a
  obtain ⟨hmem, -, -⟩ := (effect_of_exec h).keeps_host
  rw [hmem]

/-- Settles O26: every effect but CONSTRUCT's keeps `synced` or sets it. -/
theorem syncedStays : Obligations.SyncedStays := by
  unfold Obligations.SyncedStays
  intro i s t h hs hc
  obtain hkept | ⟨-, hset⟩ := (effect_of_exec h).synced_eq hc
  · rw [hkept, hs]
  · exact hset

end

section
/-! PROOF. The invariant (10_state.md R10, R14 to R16, 60_exceptions.md R124): it holds at reset, every effect of an instruction
keeps it, and so does every move of the host. With it, the bounds of what PROCESS leaves and what the readouts return. -/

namespace Sys2Proof.Machine

/-! ### Bounds of what the commands write -/

theorem toNat_thresholdOf (n : Word) (pct : Byte) :
    (thresholdOf n pct).toNat = n.toNat * min pct.toNat 100 / 100 := by
  have hle : n.toNat * min pct.toNat pctMax ≤ n.toNat * 100 := Nat.mul_le_mul_left _ (Nat.min_le_right _ _)
  have hlt : n.toNat < 2 ^ 32 := n.isLt
  rw [thresholdOf, BitVec.toNat_ofNat, Nat.mod_eq_of_lt (by omega)]

/-- A share of at most 100 in 100 (10_state.md R14). -/
theorem thresholdOf_le (n : Word) (pct : Byte) : (thresholdOf n pct).toNat ≤ n.toNat := by
  have hle : n.toNat * min pct.toNat 100 ≤ n.toNat * 100 := Nat.mul_le_mul_left _ (Nat.min_le_right _ _)
  rw [toNat_thresholdOf]
  omega

theorem processedPackets_length_le (s : State) (d : Bool) : (processedPackets s d).length ≤ frameCount s := by
  rw [processedPackets, List.length_map]
  exact (List.length_filter_le _ _).trans_eq List.length_range

/-- A buffer of at most MAX_WORDS words has at most PKT_CAP frames (00_scope.md R5). -/
theorem frameCount_le_cap {s : State} (hn : s.n.toNat ≤ s.hw.maxWords) : frameCount s ≤ 32 * s.hw.maxWords / 66 := by
  have hle : 32 * s.n.toNat / 66 ≤ 32 * s.hw.maxWords / 66 := Nat.div_le_div_right (Nat.mul_le_mul_left 32 hn)
  unfold frameCount
  split <;> omega

/-! ### Each effect keeps the invariant -/

theorem inv_answer {s : State} (h : Inv s) (status : Status) (result : Result) : Inv (s.answer status result) :=
  ⟨h.memWf, h.faultConfigured, h.sizeBound, h.thresholdBound, h.berBound, h.packetBound⟩

theorem inv_constructed {s : State} (h : Inv s) (b : Handle) {z : Word} (hz : z.toNat ≤ s.hw.maxWords) (pct : Byte)
    (ss : Word) : Inv (s.constructed b z pct ss) where
  memWf := h.memWf
  faultConfigured := nofun
  sizeBound := fun _ => hz
  thresholdBound := fun _ => thresholdOf_le _ _
  berBound := fun _ => Nat.zero_le _
  packetBound := fun _ => Nat.zero_le _

theorem inv_attach {s : State} (h : Inv s) (b : Handle) {z : Word} (hz : z.toNat ≤ s.hw.maxWords) : Inv (s.attach b z) :=
  ⟨h.memWf, h.faultConfigured, fun _ => hz, h.thresholdBound, h.berBound, h.packetBound⟩

theorem inv_setSlip {s : State} (h : Inv s) (slip : BitVec 6) : Inv (s.setSlip slip) :=
  ⟨h.memWf, h.faultConfigured, h.sizeBound, h.thresholdBound, h.berBound, h.packetBound⟩

theorem inv_acceptSlip {s : State} (h : Inv s) (c : Nat) : Inv (s.acceptSlip c) :=
  ⟨h.memWf, h.faultConfigured, h.sizeBound, h.thresholdBound, h.berBound, h.packetBound⟩

theorem inv_processed {s : State} (h : Inv s) (hs : Ready s) (d : Bool) : Inv (s.processed d) where
  memWf := h.memWf
  faultConfigured := h.faultConfigured
  sizeBound := h.sizeBound
  thresholdBound := h.thresholdBound
  berBound := fun _ => processedBer_le s
  packetBound := fun _ => (processedPackets_length_le s d).trans (frameCount_le_cap (h.sizeBound hs.1))

theorem not_ready_raiseBounds (s : State) (fi : FaultInfo) : ¬ Ready (s.raiseBounds fi) := fun h => nomatch h.2

/-- While FAULTED nothing is said of the outputs; `fault` is set past the gate only, so `configured` holds. -/
theorem inv_raiseBounds {s : State} (h : Inv s) (hc : s.configured = true) (fi : FaultInfo) : Inv (s.raiseBounds fi) where
  memWf := h.memWf
  faultConfigured := fun _ => hc
  sizeBound := h.sizeBound
  thresholdBound := h.thresholdBound
  berBound := fun hr => absurd hr (not_ready_raiseBounds s fi)
  packetBound := fun hr => absurd hr (not_ready_raiseBounds s fi)

theorem inv_abandonProcess_raiseBounds {s : State} (h : Inv s) (hc : s.configured = true) (fi : FaultInfo) :
    Inv (s.abandonProcess.raiseBounds fi) where
  memWf := h.memWf
  faultConfigured := fun _ => hc
  sizeBound := h.sizeBound
  thresholdBound := h.thresholdBound
  berBound := fun hr => absurd hr (not_ready_raiseBounds _ fi)
  packetBound := fun hr => absurd hr (not_ready_raiseBounds _ fi)

theorem Effect.keeps_inv {i : Instr} {s t : State} (h : Effect s i t) (hs : Inv s) : Inv t := by
  cases h with
  | refused | replied => exact inv_answer hs _ _
  | constructed _ _ b _ _ _ hz => exact inv_answer (inv_constructed hs b hz _ _) _ _
  | attached _ b _ hz => exact inv_answer (inv_attach hs b hz) _ _
  | slipForced => exact inv_answer (inv_setSlip hs _) _ _
  | slipAccepted => exact inv_answer (inv_acceptSlip hs _) _ _
  | searchRaised hr => exact inv_raiseBounds hs hr.1 _
  | processed hr d => exact inv_answer (inv_processed hs hr d) _ _
  | processRaised hr => exact inv_abandonProcess_raiseBounds hs hr.1 _

/-! ### The host's moves -/

theorem inv_poweredOn (hw : Params) {m : Memory} (hm : Memory.wf m = true) (inbox : List HostMove) (count : Nat) :
    Inv { State.reset with hw := hw, mem := m, inbox := inbox, freeCount := count } where
  memWf := hm
  faultConfigured := nofun
  sizeBound := nofun
  thresholdBound := nofun
  berBound := fun hr => nomatch hr.1
  packetBound := fun hr => nomatch hr.1

theorem inv_inbox {s : State} (h : Inv s) (inbox : List HostMove) : Inv { s with inbox := inbox } :=
  ⟨h.memWf, h.faultConfigured, h.sizeBound, h.thresholdBound, h.berBound, h.packetBound⟩

theorem inv_mem {s : State} (h : Inv s) {m : Memory} (hm : Memory.wf m = true) : Inv { s with mem := m } :=
  ⟨hm, h.faultConfigured, h.sizeBound, h.thresholdBound, h.berBound, h.packetBound⟩

end Sys2Proof.Machine

open Sys2Proof Sys2Proof.Machine

/-- Settles O8: at reset memory is empty and nothing is configured. -/
theorem resetMeetsInvariant : Obligations.ResetMeetsInvariant := by
  unfold Obligations.ResetMeetsInvariant
  exact inv_poweredOn _ reset_mem_wf _ _

/-- Settles O9: the host's moves keep the invariant, and so does each effect of an instruction. -/
theorem stepKeepsInvariant : Obligations.StepKeepsInvariant := by
  unfold Obligations.StepKeepsInvariant
  intro s t hs h
  obtain ⟨-, rfl⟩ | ⟨r, i, w, rest, -, -, rfl⟩ | ⟨rest, -, rfl⟩ | ⟨_, rest, i, -, -, hexec⟩ := step_next h
  · exact hs
  · exact inv_inbox (inv_mem hs (writeWord_wf hs.memWf r i w)) rest
  · exact inv_poweredOn _ hs.memWf _ _
  · exact (effect_of_exec hexec).keeps_inv (inv_inbox hs rest)

/-- Settles O42: a PROCESS that completes leaves the stream's records and count; one that underflows faults. -/
theorem processBounds : Obligations.ProcessBounds := by
  unfold Obligations.ProcessBounds
  intro d s t hs h hfault
  have hexec : exec (.process d) s = processBody d s := exec_ready rfl hs
  rw [hexec] at h
  by_cases hfit : FramesFit s
  · rw [processBody_fit hfit] at h
    cases h
    exact ⟨processedBer_le s, processedPackets_length_le s d⟩
  · rw [processBody_underflow hfit] at h
    cases h
    exact nomatch hfault

/-- Settles O58: the readouts return the registers that the invariant bounds. -/
theorem readoutsBounded : Obligations.ReadoutsBounded := by
  unfold Obligations.ReadoutsBounded
  intro s hinv hs
  refine ⟨⟨_, _, exec_ready rfl hs, rfl, hinv.berBound hs⟩, _, _, _, exec_ready rfl hs, rfl, ?_, hinv.packetBound hs⟩
  exact (List.length_map recordWire).symm

end

section
/-! PROOF. The status codes (60_exceptions.md R123, R124): every instruction meets exactly one of six cases, and each case fixes
the status, the result and what becomes of the state. -/

namespace Sys2Proof.Machine

theorem refuse_eq (s : State) (status : Status) : s.refuse status = { s with reply := some ⟨status, .noResult⟩ } := rfl

/-! ### RESERVED and the operand checks -/

theorem not_gated_of_reservedRow {i : Instr} (h : isReservedRow i = true) : gatedCommand i = false := by
  cases i with
  | reserved => rfl
  | _ => cases h

theorem not_operandOutOfRange_of_reservedRow {i : Instr} (h : isReservedRow i = true) (s : State) :
    ¬ OperandOutOfRange s i := by
  cases i with
  | reserved => exact id
  | _ => cases h

theorem not_reservedRow_of_gated {i : Instr} (h : gatedCommand i = true) : isReservedRow i = false :=
  Bool.eq_false_iff.mpr fun hr => Bool.eq_false_iff.mp (not_gated_of_reservedRow hr) h

theorem not_reservedRow_of_operandOutOfRange {i : Instr} {s : State} (h : OperandOutOfRange s i) :
    isReservedRow i = false :=
  Bool.eq_false_iff.mpr fun hr => not_operandOutOfRange_of_reservedRow hr s h

/-! ### What is not refused -/

/-- OK, and `fault` is not set. -/
def AnswersOk (s t : State) : Prop := (∃ result, t.reply = some ⟨.ok, result⟩) ∧ ¬ (s.fault = false ∧ t.fault = true)

/-- BOUNDS_VIOLATION with `fault_info`, and `fault` is set. -/
def AnswersBounds (s t : State) : Prop :=
  t.reply = some ⟨.boundsViolation, .faultInfo t.faultInfo⟩ ∧ s.fault = false ∧ t.fault = true

theorem answersOk_of_fault_eq {s t : State} {result : Result} (hreply : t.reply = some ⟨.ok, result⟩)
    (hfault : t.fault = s.fault) : AnswersOk s t :=
  ⟨⟨result, hreply⟩, fun h => by rw [hfault, h.1] at h; exact nomatch h.2⟩

theorem answersBounds_raiseBounds {s : State} (hs : s.fault = false) (u : State) (fi : FaultInfo) :
    AnswersBounds s (u.raiseBounds fi) :=
  ⟨rfl, hs, rfl⟩

/-- CONSTRUCT clears `fault`, a BoundsViolation sets it, and every other effect keeps it. -/
theorem Effect.answers {i : Instr} {s t : State} (h : Effect s i t) (hi : ¬ Refusable s i) :
    AnswersOk s t ∨ AnswersBounds s t := by
  cases h with
  | refused _ _ hrefusable => exact absurd hrefusable hi
  | constructed => exact .inl ⟨⟨_, rfl⟩, nofun⟩
  | searchRaised hs => exact .inr (answersBounds_raiseBounds hs.2 _ _)
  | processRaised hs => exact .inr (answersBounds_raiseBounds hs.2 _ _)
  | _ => exact .inl (answersOk_of_fault_eq rfl rfl)

/-! ### The six cases -/

/-- In R124's order: the reserved word, the two gates, the operand, and else the instruction's own answer. -/
theorem exec_status_cases (i : Instr) (s : State) :
    (isReservedRow i = true ∧ exec i s = .next (s.refuse .refusedReserved)) ∨
    (gatedCommand i = true ∧ s.fault = true ∧ exec i s = .next (s.refuse .refusedFaulted)) ∨
    (gatedCommand i = true ∧ s.fault = false ∧ s.configured = false ∧ exec i s = .next (s.refuse .refusedUnconfigured)) ∨
    (OperandOutOfRange s i ∧ (gatedCommand i = true → Ready s) ∧ exec i s = .next (s.refuse .refusedOperand)) ∨
    (isReservedRow i = false ∧ (gatedCommand i = true → Ready s) ∧ ¬ OperandOutOfRange s i ∧
      ∃ t, exec i s = .next t ∧ (AnswersOk s t ∨ AnswersBounds s t)) := by
  cases hr : isReservedRow i with
  | true =>
    cases i with
    | reserved => exact .inl ⟨rfl, rfl⟩
    | _ => cases hr
  | false =>
    by_cases hgate : gatedCommand i = true → Ready s
    · by_cases ho : OperandOutOfRange s i
      · exact .inr (.inr (.inr (.inl ⟨ho, hgate, exec_operandOutOfRange ho hgate⟩)))
      · obtain ⟨t, ht, heffect⟩ := exec_effect i s
        have hi : ¬ Refusable s i := by
          rintro (hreserved | ⟨hg, hnot⟩ | hoperand)
          · exact Bool.eq_false_iff.mp hr hreserved
          · exact hnot (hgate hg)
          · exact ho hoperand
        exact .inr (.inr (.inr (.inr ⟨rfl, hgate, ho, t, ht, heffect.answers hi⟩)))
    · obtain ⟨hg, hnot⟩ := Classical.not_imp.mp hgate
      cases hf : s.fault with
      | true => exact .inr (.inl ⟨hg, rfl, exec_gated_faulted hg hf⟩)
      | false =>
        have hc : s.configured = false := Bool.eq_false_iff.mpr fun hc => hnot ⟨hc, hf⟩
        exact .inr (.inr (.inl ⟨hg, rfl, hc, (refusedUntilReady_of_gated hg s).2 hf hc⟩))

end Sys2Proof.Machine

open Sys2Proof Sys2Proof.Machine

/-- Settles O14, by the six cases of an answer, which exclude each other. -/
theorem statusCodes : Obligations.StatusCodes := by
  unfold Obligations.StatusCodes
  refine ⟨rfl, rfl, rfl, rfl, rfl, rfl, fun status => by cases status <;> decide, fun i s => ?answers, ?alignmentFailure⟩
  case alignmentFailure =>
    exact fun s hs hsearch => ⟨_, (exec_ready rfl hs).trans (synchronizeBody_none hsearch), rfl⟩
  case answers =>
    have hsame : ¬ (s.fault = false ∧ s.fault = true) := fun h => nomatch h.1.symm.trans h.2
    obtain ⟨hr, he⟩ | ⟨hg, hf, he⟩ | ⟨hg, hf, hc, he⟩ | ⟨ho, hgate, he⟩ | ⟨hr, hgate, ho, t, he, hanswer⟩ :=
      exec_status_cases i s
    · have hg := not_gated_of_reservedRow hr
      have ho := not_operandOutOfRange_of_reservedRow hr s
      exact ⟨_, _, he, rfl, by simp [refuse_eq, hr, hg, ho, hsame]⟩
    · have hr := not_reservedRow_of_gated hg
      exact ⟨_, _, he, rfl, by simp [refuse_eq, hr, hg, hf, Ready]⟩
    · have hr := not_reservedRow_of_gated hg
      exact ⟨_, _, he, rfl, by simp [refuse_eq, hr, hg, hf, hc, Ready]⟩
    · have hr := not_reservedRow_of_operandOutOfRange ho
      have hready : gatedCommand i = true → s.configured = true ∧ s.fault = false := hgate
      exact ⟨_, _, he, rfl, by simp +contextual [refuse_eq, Ready, hr, ho, hsame, hready]⟩
    · have hready : gatedCommand i = true → s.configured = true ∧ s.fault = false := hgate
      obtain ⟨⟨result, hreply⟩, hkept⟩ | ⟨hreply, hf, hraised⟩ := hanswer
      · exact ⟨t, _, he, hreply, by simp +contextual [Ready, hr, ho, hkept, hready]⟩
      · exact ⟨t, _, he, hreply, by simp +contextual [hr, ho, hf, hraised, hready]⟩

end

section
/-! PROOF. Each command once its gate is passed (45_receiver_commands.md R102 to R110), the host's two other moves (20_memory.md
R34, 70_reset_and_hazards.md R130), and SyncRead by the stream (40_bit_extractor.md R58). -/

namespace Sys2Proof.Machine

/-! ### CONSTRUCT (R102) -/

theorem toNat_clampSample (size ss : Word) : (clampSample size ss).toNat = min size.toNat ss.toNat := by
  rcases Nat.lt_or_ge ss.toNat size.toNat with h | h
  · rw [clampSample_of_lt h, Nat.min_eq_right h.le]
  · rw [clampSample_of_le h, Nat.min_eq_left h]

theorem toNat_selectPct (c : Bool) (pct : Byte) : (selectPct c pct).toNat = if c then 90 else pct.toNat := by
  cases c <;> rfl

/-- Of the state before, CONSTRUCT keeps the parameters, the host's part and the last reply (70_reset_and_hazards.md R131). -/
theorem constructed_forgets {s s' : State} (hhw : s.hw = s'.hw) (b : Handle) (z : Word) (pct : Byte) (ss : Word) :
    s'.constructed b z pct ss =
      { s.constructed b z pct ss with
        faultInfo := (s'.constructed b z pct ss).faultInfo
        mem := s'.mem
        inbox := s'.inbox
        reply := s'.reply
        freeCount := (s'.constructed b z pct ss).freeCount } := by
  simp only [State.constructed, hhw]

/-! ### FORCE_BITSLIP (R104) -/

/-- A slip below 64 is its low six bits. -/
theorem toNat_setWidth_slip {slip : Byte} (h : slip.toNat < 64) : (slip.setWidth 6).toNat = slip.toNat := by
  rw [BitVec.toNat_setWidth, Nat.mod_eq_of_lt h]

/-! ### PROCESS (43_frame_iterator.md R83) -/

/-- Two words hold no whole frame. -/
theorem not_framesFit_of_short {s : State} (hslip : s.bitslip ≠ 0) (hn : s.n.toNat ≤ 2) : ¬ FramesFit s :=
  (not_framesFit_iff s).mpr ⟨hslip, by omega⟩

/-! ### The host's moves -/

theorem step_store {s : State} {h : Handle} {i : Nat} {w : Word} {rest : List HostMove}
    (hin : s.inbox = .store h i w :: rest) (hi : i < 2 ^ 32) :
    step s = .next { s with mem := writeWord s.mem h i w, inbox := rest } :=
  (step_cons hin).trans (if_pos hi)

theorem step_powerOn {s : State} {rest : List HostMove} (hin : s.inbox = .powerOn :: rest) :
    step s = .next { State.reset with hw := s.hw, mem := s.mem, inbox := rest, freeCount := s.freeCount } :=
  step_cons hin

end Sys2Proof.Machine

open Sys2Proof Sys2Proof.Machine

/-- Settles O10: the reset state's flags are false, and power-on takes them from it. -/
theorem powerOnClears : Obligations.PowerOnClears := by
  unfold Obligations.PowerOnClears
  exact ⟨rfl, rfl, fun _ _ hin => ⟨_, step_powerOn hin, rfl, rfl, rfl, rfl, rfl⟩⟩

/-- Settles O17: an accepted CONSTRUCT's writes, the two clamps as numbers. -/
theorem constructCompletes : Obligations.ConstructCompletes := by
  unfold Obligations.ConstructCompletes
  intro p c h z pct ss s hz
  refine ⟨_, exec_construct_accepted hz, rfl, rfl, ?sample, ?threshold, rfl, rfl, rfl, rfl, rfl, rfl, rfl, rfl, rfl, rfl⟩
  case sample =>
    rw [← toNat_selectSample]
    exact toNat_clampSample z _
  case threshold =>
    rw [← toNat_selectPct]
    exact toNat_thresholdOf _ _

/-- Settles O18: both CONSTRUCTs are accepted, and what each writes comes of its operands and the parameters. -/
theorem constructForgets : Obligations.ConstructForgets := by
  unfold Obligations.ConstructForgets
  intro p c h z pct ss s s' t t' hhw hz ht ht'
  rw [exec_construct_accepted hz] at ht
  rw [exec_construct_accepted (hhw ▸ hz)] at ht'
  cases ht
  cases ht'
  rw [constructed_forgets hhw]
  rfl

/-- Settles O21: past the gate and with its size in range, SET_BUFFER attaches the buffer. -/
theorem setBufferCompletes : Obligations.SetBufferCompletes := by
  unfold Obligations.SetBufferCompletes
  exact fun _ _ _ hs hz => (exec_ready rfl hs).trans (setBufferBody_accepted hz)

/-- Settles O22: past the gate and with its slip in range, FORCE_BITSLIP writes the slip's six bits. -/
theorem forceBitslipCompletes : Obligations.ForceBitslipCompletes := by
  unfold Obligations.ForceBitslipCompletes
  exact fun v _ hs hv => ⟨v.setWidth 6, toNat_setWidth_slip hv, (exec_ready rfl hs).trans (forceBitslipBody_accepted hv)⟩

/-- Settles O23: past the gate a readout answers its register. -/
theorem readoutsComplete : Obligations.ReadoutsComplete := by
  unfold Obligations.ReadoutsComplete
  intro s hs
  have hbyte : (s.bitslip.setWidth 8).toNat = s.bitslip.toNat := BitVec.toNat_setWidth_of_le (by decide)
  exact ⟨exec_ready rfl hs, ⟨_, hbyte, exec_ready rfl hs⟩, exec_ready rfl hs, exec_ready rfl hs⟩

/-- Settles O28: the write is the step, and memory's two laws read it back. -/
theorem hostWriteSeen : Obligations.HostWriteSeen := by
  unfold Obligations.HostWriteSeen
  intro s h i w rest hin hmem hi
  exact ⟨_, step_store hin hi, rfl, readWord_writeWord_same hmem h i w, fun h' i' hi' hne =>
    readWord_writeWord_other s.mem w hi hi' fun heq => hne ⟨heq.1.symm, heq.2.symm⟩⟩

/-- Settles O30: SyncRead's last word lies inside the buffer with its last bit. -/
theorem syncReadAgrees : Obligations.SyncReadAgrees := by
  unfold Obligations.SyncReadAgrees
  exact fun _ _ _ => syncRead_ok

/-- Settles O41: two words hold no whole frame, so a nonzero slip underflows. -/
theorem processUnderflow : Obligations.ProcessUnderflow := by
  unfold Obligations.ProcessUnderflow
  intro d s hs hslip hn
  have hraised := processBody_underflow (not_framesFit_of_short hslip hn) d
  exact ⟨_, (exec_ready rfl hs).trans hraised, rfl, rfl, rfl, rfl, rfl, rfl, rfl, rfl, rfl, rfl, rfl⟩

end

section
/-! PROOF. The alignment search over the stream (42_alignment.md R69 to R79): where every header a candidate could read lies
inside the buffer, each part of the search answers what the stream says, so SYNCHRONIZE accepts the first candidate that the
stream accepts. With a small sample window or threshold 0 a candidate's test is that of
its first five frames (R78). -/

namespace Sys2Proof.Machine

/-! ### A header (R69) -/

/-- The headers of the frames below `k` at slip `c` lie inside the buffer. -/
def HeadersFit (s : State) (c k : Nat) : Prop := ∀ j, j < k → c + 66 * j + 2 ≤ 32 * s.n.toNat

theorem HeadersFit.mono {s : State} {c k m : Nat} (h : HeadersFit s c k) (hm : m ≤ k) : HeadersFit s c m :=
  fun j hj => h j (hj.trans_le hm)

theorem syncValid_setWidth : ∀ sync : BitVec 2, syncValid (sync.setWidth 8) = (sync == 0b01 || sync == 0b10) := by decide

theorem headerValid_ok {s : State} {c k : Nat} (h : c + 66 * k + 2 ≤ 32 * s.n.toNat) :
    headerValid s c k = .ok (headerAt s c k) := by
  rw [headerAt, ← syncValid_setWidth]
  exact bind_ok_iff.mpr ⟨_, syncRead_ok h, rfl⟩

/-! ### The first five frames and the walk (R71 to R73) -/

theorem prefixFrom_ok {s : State} {c m k : Nat} (h : HeadersFit s c (k + m)) :
    prefixFrom s c m k = .ok ((List.range' k m).all (headerAt s c)) := by
  induction m generalizing k with
  | zero => rfl
  | succ m ih =>
    refine bind_ok_iff.mpr ⟨_, headerValid_ok (h k (by omega)), ?_⟩
    rw [List.range'_succ, List.all_cons]
    cases headerAt s c k with
    | true => exact ih (h.mono (by omega))
    | false => rfl

/-- The count only grows, so the acceptance test after each header is the test after the last. -/
theorem walk_ok {s : State} {c m k valid : Nat} (h : HeadersFit s c (k + m)) (hvalid : valid < s.threshold.toNat) :
    walk s c m k valid =
      .ok (decide (s.threshold.toNat ≤ valid + (List.range' k m).countP (headerAt s c))) := by
  induction m generalizing k valid with
  | zero =>
    have hnot : ¬ s.threshold.toNat ≤ valid + 0 := Nat.not_le.mpr hvalid
    exact congrArg Except.ok (decide_eq_false hnot).symm
  | succ m ih =>
    refine bind_ok_iff.mpr ⟨_, headerValid_ok (h k (by omega)), ?_⟩
    have hcount : valid + (List.range' k (m + 1)).countP (headerAt s c) =
        (if headerAt s c k = true then valid + 1 else valid) + (List.range' (k + 1) m).countP (headerAt s c) := by
      rw [List.range'_succ, List.countP_cons]
      split <;> omega
    rw [hcount]
    generalize (if headerAt s c k = true then valid + 1 else valid) = valid'
    by_cases hreached : s.threshold.toNat ≤ valid'
    · rw [if_pos hreached, decide_eq_true (hreached.trans (Nat.le_add_right _ _))]
      rfl
    · rw [if_neg hreached]
      exact ih (h.mono (by omega)) (Nat.lt_of_not_le hreached)

/-! ### A candidate and the search (R70, R76) -/

theorem tryCandidate_ok {s : State} {c : Nat} (h : HeadersFit s c (max 5 s.sampleSize.toNat)) :
    tryCandidate s c = .ok (accepts s c) := by
  have hprefix : prefixValid s c = .ok ((List.range 5).all (headerAt s c)) := by
    rw [List.range_eq_range']
    exact prefixFrom_ok (h.mono (by omega : 0 + 5 ≤ _))
  refine bind_ok_iff.mpr ⟨_, hprefix, ?_⟩
  rw [accepts]
  cases (List.range 5).all (headerAt s c) with
  | false => rfl
  | true =>
    rw [if_pos rfl, Bool.true_and]
    by_cases hreached : s.threshold.toNat ≤ 5
    · rw [if_pos hreached, decide_eq_true (hreached.trans (Nat.le_add_right _ _))]
      rfl
    · rw [if_neg hreached]
      exact walk_ok (h.mono (by omega : 5 + (s.sampleSize.toNat - 5) ≤ _)) (Nat.lt_of_not_le hreached)

theorem searchFrom_ok {s : State} {m c : Nat} (h : ∀ b, b < c + m → tryCandidate s b = .ok (accepts s b)) :
    searchFrom s m c = .ok ((List.range' c m).find? (accepts s)) := by
  induction m generalizing c with
  | zero => rfl
  | succ m ih =>
    refine bind_ok_iff.mpr ⟨_, h c (by omega), ?_⟩
    rw [List.range'_succ, List.find?_cons]
    cases accepts s c with
    | true => rfl
    | false => exact ih fun b hb => h b (by omega)

theorem headersFit_of_searchFits {s : State} (h : SearchFits s) {c : Nat} (hc : c < 64) :
    HeadersFit s c (max 5 s.sampleSize.toNat) := by
  unfold SearchFits at h
  intro j hj
  omega

theorem search_ok {s : State} (h : SearchFits s) : search s = .ok (firstAccepted s) := by
  rw [firstAccepted, List.range_eq_range']
  exact searchFrom_ok fun b hb => tryCandidate_ok (headersFit_of_searchFits h (by omega))

/-! ### Small sample windows (R78) -/

/-- Once five headers reach the threshold, the walk is never entered. -/
theorem tryCandidate_eq_prefixValid {s : State} (h : s.threshold.toNat ≤ 5) (c : Nat) :
    tryCandidate s c = prefixValid s c := by
  rw [tryCandidate]
  match prefixValid s c with
  | .ok true => exact if_pos h
  | .ok false => rfl
  | .error _ => rfl

end Sys2Proof.Machine

open Sys2Proof Sys2Proof.Machine

/-- Settles O36: the search answers the stream's first accepted candidate, which SYNCHRONIZE takes. -/
theorem synchronizeFirstFit : Obligations.SynchronizeFirstFit := by
  unfold Obligations.SynchronizeFirstFit
  intro s hs hfits
  have hsearch := search_ok hfits
  have hexec : exec .synchronize s = synchronizeBody s := exec_ready rfl hs
  rw [hexec]
  cases hfirst : firstAccepted s with
  | none => exact ⟨synchronizeBody_none (hfirst ▸ hsearch), nofun⟩
  | some c =>
    have hfound : search s = .ok (some c) := hfirst ▸ hsearch
    refine ⟨synchronizeBody_some hfound, fun c' hc' => ?_⟩
    cases hc'
    exact (search_some hfound).1

/-- Settles O38: either hypothesis leaves the threshold at most 5, which the first five frames reach. -/
theorem smallSample : Obligations.SmallSample := by
  unfold Obligations.SmallSample
  exact fun s c hle hsmall => tryCandidate_eq_prefixValid (by omega) c

end

section
/-! PROOF. Isolation (70_reset_and_hazards.md R130, R144, 20_memory.md R23): an instruction's answer is a write that the
parameters, the gate, and, past the gate, the registers and the attached buffer's words fix. Two states alike in those take
the same write, which keeps apart neither what no host can see nor the words outside the buffer. -/

namespace Sys2Proof.Machine

/-! ### What an instruction looks at -/

/-- Two states alike in all that a command reads once its gate is passed. -/
structure BodyAlike (s t : State) : Prop where
  hw : t.hw = s.hw
  n : t.n = s.n
  bitslip : t.bitslip = s.bitslip
  synced : t.synced = s.synced
  sampleSize : t.sampleSize = s.sampleSize
  threshold : t.threshold = s.threshold
  berCounter : t.berCounter = s.berCounter
  packets : t.packets = s.packets
  read : memRead t = memRead s

/-- Two states alike in all that an instruction reads: the gate's flags, and past the gate what its body reads. -/
structure Alike (s t : State) : Prop where
  hw : t.hw = s.hw
  configured : t.configured = s.configured
  fault : t.fault = s.fault
  body : Ready s → BodyAlike s t

/-! ### The reads and the search -/

section
variable {s t : State} (h : BodyAlike s t)
include h

theorem BodyAlike.syncRead_eq (c k : Nat) : syncRead t c k = syncRead s c k := by
  simp only [syncRead, h.read]

theorem BodyAlike.payloadRead_eq (c k : Nat) : payloadRead t c k = payloadRead s c k := by
  simp only [payloadRead, h.read]

theorem BodyAlike.nextFrame_eq (k : Nat) : nextFrame t k = nextFrame s k := by
  simp only [nextFrame, h.bitslip, h.syncRead_eq, h.payloadRead_eq]

theorem BodyAlike.headerValid_eq (c k : Nat) : headerValid t c k = headerValid s c k := by
  simp only [headerValid, h.syncRead_eq]

theorem BodyAlike.prefixFrom_eq (c m k : Nat) : prefixFrom t c m k = prefixFrom s c m k := by
  induction m generalizing k with
  | zero => rfl
  | succ m ih => simp only [prefixFrom, h.headerValid_eq, ih]

theorem BodyAlike.walk_eq (c m k valid : Nat) : walk t c m k valid = walk s c m k valid := by
  induction m generalizing k valid with
  | zero => rfl
  | succ m ih => simp only [walk, h.headerValid_eq, h.threshold, ih]

theorem BodyAlike.tryCandidate_eq (c : Nat) : tryCandidate t c = tryCandidate s c := by
  simp only [tryCandidate, prefixValid, h.prefixFrom_eq, h.walk_eq, h.threshold, h.sampleSize]

theorem BodyAlike.searchFrom_eq (m c : Nat) : searchFrom t m c = searchFrom s m c := by
  induction m generalizing c with
  | zero => rfl
  | succ m ih => simp only [searchFrom, h.tryCandidate_eq, ih]

theorem BodyAlike.search_eq : search t = search s := h.searchFrom_eq _ _

/-! ### PROCESS -/

theorem BodyAlike.framesFit_iff : FramesFit t ↔ FramesFit s := by
  rw [FramesFit, FramesFit, h.bitslip, h.n]

theorem BodyAlike.frameCount_eq : frameCount t = frameCount s := by
  rw [frameCount, frameCount, h.bitslip, h.n]

/-- A frame inside the buffer has the record that NextFrame reads, in both states. -/
theorem BodyAlike.recordAt_eq (hfit : FramesFit s) {k : Nat} (hk : k < frameCount s) : recordAt t k = recordAt s k := by
  have hs : nextFrame s k = .ok (recordAt s k) := nextFrame_ok (frame_inside_of_lt_frameCount hfit hk)
  have ht : nextFrame t k = .ok (recordAt t k) :=
    nextFrame_ok (frame_inside_of_lt_frameCount (h.framesFit_iff.mpr hfit) (h.frameCount_eq ▸ hk))
  rw [h.nextFrame_eq, hs] at ht
  exact (Except.ok.inj ht).symm

theorem BodyAlike.processedPackets_eq (hfit : FramesFit s) (d : Bool) : processedPackets t d = processedPackets s d := by
  have hrecord : ∀ k ∈ List.range (frameCount s), recordAt t k = recordAt s k := fun k hk =>
    h.recordAt_eq hfit (List.mem_range.mp hk)
  have hkept : ∀ k ∈ List.range (frameCount s), keptAt t d k = keptAt s d k := fun k hk => by
    rw [keptAt, keptAt, hrecord k hk, h.hw]
  rw [processedPackets, processedPackets, h.frameCount_eq, List.filter_congr hkept]
  exact List.map_congr_left fun k hk => hrecord k (List.mem_of_mem_filter hk)

theorem BodyAlike.processedBer_eq (hfit : FramesFit s) : processedBer t = processedBer s := by
  have herror : ∀ k ∈ List.range (frameCount s),
      ((recordAt t k).cls == .error) = true ↔ ((recordAt s k).cls == .error) = true := fun k hk => by
    rw [h.recordAt_eq hfit (List.mem_range.mp hk)]
  rw [processedBer, processedBer, errorFrames, errorFrames, h.frameCount_eq, List.countP_congr herror]

end

/-! ### What an instruction writes -/

/-- The writes an instruction can make, with the values it writes. -/
inductive Write where
  | reply (status : Status) (result : Result)
  | construct (buf0 : Handle) (size : Word) (pct : Byte) (ss : Word)
  | attach (buf1 : Handle) (size : Word)
  | forceSlip (slip : BitVec 6)
  | acceptSlip (c : Nat)
  | raiseBounds (fi : FaultInfo)
  | process (records : List FrameRecord) (ber : Nat)
  | abandonProcess (fi : FaultInfo)

/-- The state after a write, with the reply of its command (60_exceptions.md R123). -/
def Write.apply : Write → State → State
  | .reply status result, s => s.answer status result
  | .construct buf0 size pct ss, s => (s.constructed buf0 size pct ss).answer .ok .noResult
  | .attach buf1 size, s => (s.attach buf1 size).answer .ok .noResult
  | .forceSlip slip, s => (s.setSlip slip).answer .ok .noResult
  | .acceptSlip c, s => (s.acceptSlip c).answer .ok (.flag true)
  | .raiseBounds fi, s => s.raiseBounds fi
  | .process records ber, s => State.answer { s with packets := records, berCounter := ber } .ok .noResult
  | .abandonProcess fi, s => s.abandonProcess.raiseBounds fi

/-- The instruction makes the same write in both states. -/
def SameWrite (f : State → Host.Outcome State Fault Refusal) (s t : State) : Prop :=
  ∃ w : Write, f s = .next (w.apply s) ∧ f t = .next (w.apply t)

theorem commandBody_sameWrite {i : Instr} {s t : State} (hi : gatedCommand i = true) (h : BodyAlike s t) :
    SameWrite (commandBody i) s t := by
  cases i with
  | setBuffer b z =>
    rcases Nat.lt_or_ge s.hw.maxWords z.toNat with hz | hz
    · exact ⟨.reply _ _, setBufferBody_refused hz, setBufferBody_refused (h.hw ▸ hz)⟩
    · exact ⟨.attach b z, setBufferBody_accepted hz, setBufferBody_accepted (h.hw ▸ hz)⟩
  | forceBitslip slip =>
    rcases Nat.lt_or_ge slip.toNat 64 with hslip | hslip
    · exact ⟨.forceSlip _, forceBitslipBody_accepted hslip, forceBitslipBody_accepted hslip⟩
    · exact ⟨.reply _ _, forceBitslipBody_refused hslip, forceBitslipBody_refused hslip⟩
  | synchronize =>
    match hsearch : search s with
    | .ok (some c) => exact ⟨.acceptSlip c, synchronizeBody_some hsearch, synchronizeBody_some (h.search_eq.trans hsearch)⟩
    | .ok none => exact ⟨.reply _ _, synchronizeBody_none hsearch, synchronizeBody_none (h.search_eq.trans hsearch)⟩
    | .error fi => exact ⟨.raiseBounds fi, synchronizeBody_error hsearch, synchronizeBody_error (h.search_eq.trans hsearch)⟩
  | process d =>
    by_cases hfit : FramesFit s
    · refine ⟨.process (processedPackets s d) (processedBer s), processBody_fit hfit d, ?_⟩
      rw [← h.processedPackets_eq hfit, ← h.processedBer_eq hfit]
      exact processBody_fit (h.framesFit_iff.mpr hfit) d
    · exact ⟨.abandonProcess _, processBody_underflow hfit d, processBody_underflow (mt h.framesFit_iff.mp hfit) d⟩
  | isSynchronized => exact ⟨.reply .ok (.flag s.synced), rfl, by rw [← h.synced]; rfl⟩
  | getBitslip => exact ⟨.reply .ok (.byte (s.bitslip.setWidth 8)), rfl, by rw [← h.bitslip]; rfl⟩
  | getPacketBuffer =>
    exact ⟨.reply .ok (.records s.packets.length (s.packets.map recordWire)), rfl, by rw [← h.packets]; rfl⟩
  | getBer => exact ⟨.reply .ok (.number s.berCounter), rfl, by rw [← h.berCounter]; rfl⟩
  | _ => cases hi

theorem exec_sameWrite (i : Instr) {s t : State} (h : Alike s t) : SameWrite (exec i) s t := by
  cases hg : gatedCommand i with
  | true =>
    cases hf : s.fault with
    | true => exact ⟨.reply _ _, exec_gated_faulted hg hf, exec_gated_faulted hg (h.fault.trans hf)⟩
    | false =>
      cases hc : s.configured with
      | true =>
        obtain ⟨w, hs, ht⟩ := commandBody_sameWrite hg (h.body ⟨hc, hf⟩)
        exact ⟨w, (exec_ready hg ⟨hc, hf⟩).trans hs, (exec_ready hg ⟨h.configured.trans hc, h.fault.trans hf⟩).trans ht⟩
      | false =>
        exact ⟨.reply _ _, (refusedUntilReady_of_gated hg s).2 hf hc,
          (refusedUntilReady_of_gated hg t).2 (h.fault.trans hf) (h.configured.trans hc)⟩
  | false =>
    cases i with
    | construct p c b z pct ss =>
      rcases Nat.lt_or_ge s.hw.maxWords z.toNat with hz | hz
      · exact ⟨.reply _ _, exec_construct_refused hz, exec_construct_refused (h.hw ▸ hz)⟩
      · exact ⟨.construct b z (selectPct c pct) (selectSample p ss), exec_construct_accepted hz,
          exec_construct_accepted (h.hw ▸ hz)⟩
    | setBuffer | forceBitslip | synchronize | isSynchronized | getBitslip | process | getPacketBuffer | getBer => cases hg
    | _ => exact ⟨.reply _ _, rfl, rfl⟩

/-! ### Words outside the attached buffer (20_memory.md R23) -/

theorem memRead_eq_of_words {s : State} {m : Memory} (h : ∀ i, i < s.n.toNat → readWord m s.buf i = readWord s.mem s.buf i) :
    memRead { s with mem := m } = memRead s := by
  funext i
  rcases Nat.lt_or_ge i s.n.toNat with hi | hi
  · rw [memRead_ok hi, ← h i hi]
    exact memRead_ok hi
  · rw [memRead_error hi]
    exact memRead_error hi

theorem alike_of_words {s : State} {m : Memory} (h : ∀ i, i < s.n.toNat → readWord m s.buf i = readWord s.mem s.buf i) :
    Alike s { s with mem := m } :=
  ⟨rfl, rfl, rfl, fun _ => ⟨rfl, rfl, rfl, rfl, rfl, rfl, rfl, rfl, memRead_eq_of_words h⟩⟩

theorem Write.apply_mem (w : Write) (s : State) (m : Memory) :
    w.apply { s with mem := m } = { w.apply s with mem := m } := by
  cases w <;> rfl

/-! ### What no host can see (70_reset_and_hazards.md R130, R144) -/

theorem Indistinguishable.alike {s t : State} (h : Indistinguishable s t) : Alike s t where
  hw := h.hw.symm
  configured := h.configured.symm
  fault := h.fault.symm
  body := fun hs => by
    obtain ⟨hbuf, hn, hbitslip, hsynced, hsample, hthreshold⟩ := h.registers hs.1
    obtain ⟨hber, hpackets⟩ := h.outputs hs
    exact ⟨h.hw.symm, hn.symm, hbitslip.symm, hsynced.symm, hsample.symm, hthreshold.symm, hber.symm, hpackets.symm,
      funext (memRead_congr hn.symm hbuf.symm h.mem.symm)⟩

/-- While FAULTED the outputs are not seen, so a BoundsViolation may leave anything in them (log 12). -/
theorem indistinguishable_raiseBounds {s t : State} (hhw : s.hw = t.hw) (hconfigured : s.configured = t.configured)
    (hmem : s.mem = t.mem) (hinbox : s.inbox = t.inbox)
    (hregisters : s.configured = true → s.buf = t.buf ∧ s.n = t.n ∧ s.bitslip = t.bitslip ∧ s.synced = t.synced ∧
      s.sampleSize = t.sampleSize ∧ s.threshold = t.threshold) (fi : FaultInfo) :
    Indistinguishable (s.raiseBounds fi) (t.raiseBounds fi) :=
  ⟨hhw, hconfigured, rfl, hmem, hinbox, rfl, hregisters, fun hr => absurd hr (not_ready_raiseBounds s fi), fun _ => rfl⟩

/-- CONSTRUCT writes every element but `fault_info`, which is not seen while `fault` is false (log 11). -/
theorem indistinguishable_constructed {s t : State} (h : Indistinguishable s t) (b : Handle) (z : Word) (pct : Byte)
    (ss : Word) : Indistinguishable (s.constructed b z pct ss) (t.constructed b z pct ss) :=
  ⟨h.hw, rfl, rfl, h.mem, h.inbox, h.reply, fun _ => ⟨rfl, rfl, rfl, rfl, rfl, rfl⟩, fun _ => ⟨rfl, rfl⟩, nofun⟩

theorem Indistinguishable.answer {s t : State} (h : Indistinguishable s t) (status : Status) (result : Result) :
    Indistinguishable (s.answer status result) (t.answer status result) :=
  ⟨h.hw, h.configured, h.fault, h.mem, h.inbox, rfl, h.registers, h.outputs, h.info⟩

theorem Indistinguishable.inbox_eq {s t : State} (h : Indistinguishable s t) (inbox : List HostMove) :
    Indistinguishable { s with inbox := inbox } { t with inbox := inbox } :=
  ⟨h.hw, h.configured, h.fault, h.mem, rfl, h.reply, h.registers, h.outputs, h.info⟩

theorem Indistinguishable.writeWord {s t : State} (h : Indistinguishable s t) (b : Handle) (i : Nat) (w : Word) :
    Indistinguishable { s with mem := writeWord s.mem b i w } { t with mem := writeWord t.mem b i w } :=
  ⟨h.hw, h.configured, h.fault, congrArg (Machine.writeWord · b i w) h.mem, h.inbox, h.reply, h.registers, h.outputs, h.info⟩

/-- Two states that no host can tell apart take a write alike. -/
theorem Indistinguishable.apply {s t : State} (h : Indistinguishable s t) (w : Write) :
    Indistinguishable (w.apply s) (w.apply t) := by
  cases w with
  | reply status result => exact h.answer status result
  | construct b z pct ss => exact (indistinguishable_constructed h b z pct ss).answer _ _
  | raiseBounds fi => exact indistinguishable_raiseBounds h.hw h.configured h.mem h.inbox h.registers fi
  | abandonProcess fi =>
    exact indistinguishable_raiseBounds (s := s.abandonProcess) (t := t.abandonProcess) h.hw h.configured h.mem h.inbox h.registers fi
  | process records ber =>
    exact ⟨h.hw, h.configured, h.fault, h.mem, h.inbox, rfl, h.registers, fun _ => ⟨rfl, rfl⟩, h.info⟩
  | attach b z =>
    refine ⟨h.hw, h.configured, h.fault, h.mem, h.inbox, rfl, fun hc => ?_, h.outputs, h.info⟩
    obtain ⟨-, -, hrest⟩ := h.registers hc
    exact ⟨rfl, rfl, hrest⟩
  | forceSlip slip =>
    refine ⟨h.hw, h.configured, h.fault, h.mem, h.inbox, rfl, fun hc => ?_, h.outputs, h.info⟩
    obtain ⟨hbuf, hn, -, hrest⟩ := h.registers hc
    exact ⟨hbuf, hn, rfl, hrest⟩
  | acceptSlip c =>
    refine ⟨h.hw, h.configured, h.fault, h.mem, h.inbox, rfl, fun hc => ?_, h.outputs, h.info⟩
    obtain ⟨hbuf, hn, -, -, hrest⟩ := h.registers hc
    exact ⟨hbuf, hn, rfl, rfl, hrest⟩

theorem exec_sameOutcome (i : Instr) {s t : State} (h : Indistinguishable s t) : SameOutcome (exec i s) (exec i t) := by
  obtain ⟨w, hs, ht⟩ := exec_sameWrite i h.alike
  rw [hs, ht]
  exact h.apply w

theorem perform_sameOutcome (m : HostMove) {s t : State} (h : Indistinguishable s t) :
    SameOutcome (perform m s) (perform m t) := by
  cases m with
  | store b i w =>
    simp only [perform, hostStore]
    split
    · exact h.writeWord b i w
    · rfl
  | powerOn =>
    exact ⟨h.hw, rfl, rfl, h.mem, h.inbox, rfl, nofun, fun hr => absurd hr.1 nofun, nofun⟩
  | present r =>
    simp only [perform]
    split
    · exact exec_sameOutcome _ h
    · rfl

end Sys2Proof.Machine

open Sys2Proof Sys2Proof.Machine

/-- Settles O56: both steps perform the same move, and each move keeps the states indistinguishable; an instruction makes the
same write in both. -/
theorem unspecifiedUnobservable : Obligations.UnspecifiedUnobservable := by
  unfold Obligations.UnspecifiedUnobservable
  intro s t h
  match hin : s.inbox with
  | [] =>
    rw [step_nil hin, step_nil (h.inbox.symm.trans hin)]
    exact h
  | m :: rest =>
    rw [step_cons hin, step_cons (h.inbox.symm.trans hin)]
    exact perform_sameOutcome m (h.inbox_eq rest)

/-- Settles O57: the two states are alike in all an instruction reads, so it makes the same write in both, and no write
touches memory. -/
theorem onlyAttachedBufferRead : Obligations.OnlyAttachedBufferRead := by
  unfold Obligations.OnlyAttachedBufferRead
  intro i s t s' h hexec
  obtain ⟨hothers, hwords⟩ := h
  generalize t.mem = m at hothers hwords ⊢
  subst hothers
  obtain ⟨w, hs, ht⟩ := exec_sameWrite i (alike_of_words hwords)
  rw [hs] at hexec
  cases hexec
  rw [ht, w.apply_mem]

end
